-- ==== Sys2Proof/Word.lean ====
section
/-! DEFINITION. The word types of the ASH framer: the fixed widths of rule R9 and the byte sequences of rule R12. -/

namespace Sys2Proof

/-- A wire byte, `u8` (rules R9, R10). -/
abbrev Byte := BitVec 8

/-- A finite byte sequence in transmission order: the first byte of the list is the first on the line (rules R12, R36). -/
abbrev Bytes := List Byte

/-- The 16-bit checksum, `u16` (rules R9, R10). -/
abbrev U16 := BitVec 16

/-- A frame number or ack number: 3 bits, held modulo 8 (rules R9, R62, R80). Its addition is addition mod 8. -/
abbrev Num3 := BitVec 3

/-- An operation code `op[3:0]` (rule R71). -/
abbrev OpCode := BitVec 4

end Sys2Proof
end

