-- ==== Sys2Proof/Syntax.lean ====
section
/-! DEFINITION. The instructions of spec/opcode_table.json (six frame types, six operations), the decoded frame, the results
and reasons the spec names. -/

namespace Sys2Proof

/-- A decoded frame, the tagged variant of rule R14. -/
inductive AshFrame where
  | reset
  | resetAck
  | error (version code : Byte)
  | data (frameNumber ackNumber : Num3) (retransmit : Bool) (payload : Bytes)
  | ack (ackNumber : Num3)
  | nak (ackNumber : Num3)
deriving DecidableEq, Repr

/-- The instructions: one constructor per row of spec/opcode_table.json.
The first six are the frame types of rules R56 to R61, each standing for the reception of such a frame (log entry 6); the last
six are the operations of rule R71. -/
inductive Instr where
  /-- DATA, control byte `0fffrnnn` (rules R54, R56). -/
  | data (frameNumber ackNumber : Num3) (retransmit : Bool) (payload : Bytes)
  /-- ACK, control byte `100xxnnn` (rules R54, R57). -/
  | ack (ackNumber : Num3)
  /-- NAK, control byte `101xxnnn` (rules R54, R58). -/
  | nak (ackNumber : Num3)
  /-- RST, control byte 0xC0 (rules R54, R59). -/
  | rst
  /-- RSTACK, control byte 0xC1 (rules R54, R60). -/
  | rstack
  /-- ERROR, control byte 0xC2 (rules R54, R61). -/
  | error (version code : Byte)
  /-- SEND_DATA, code 0x1 (rules R71, R97). -/
  | sendData (payload : Bytes)
  /-- RESET, code 0x2 (rules R71, R99). -/
  | reset
  /-- FEED, code 0x3 (rules R71, R100). -/
  | feed (bytes : Bytes)
  /-- POLL_OUTGOING, code 0x4 (rules R71, R107). -/
  | pollOutgoing
  /-- RECV_FRAME, code 0x5 (rules R71, R108). -/
  | recvFrame
  /-- READ_STATUS, code 0x6 (rules R71, R109). -/
  | readStatus
deriving DecidableEq, Repr

/-- The two ports of rule R120: names of who calls what, not an access check. -/
inductive Port where
  | host
  | line
deriving DecidableEq, Repr

/-- What an agent hands the framer: a call of an operation by its 4-bit code with its operand bytes (rules R71, R96), or a
hardware reset, which opens a new connection (rule R127). The code is kept raw, so a reserved one can be presented. -/
inductive Request where
  | call (code : OpCode) (operand : Bytes)
  | hardwareReset
deriving DecidableEq, Repr

/-- An instruction as it is encoded: a frame by its wire bytes, terminating flag included (rule R51), or an operation by its
code and operand (rule R71). The two are separate code spaces (log entry 7). -/
inductive Encoded where
  | frame (wire : Bytes)
  | call (code : OpCode) (operand : Bytes)
deriving DecidableEq, Repr

/-- The drop reasons of rule R113, in the order of their codes 1 to 10. -/
inductive DropReason where
  | cancelled
  | overrun
  | badEscape
  | tooShort
  | checksumMismatch
  | unknownControl
  | tooLong
  | unknownErrorCode
  | rxOverflow
  | ackLost
deriving DecidableEq, Repr

/-- The outcome of decoding one candidate (rule R88). -/
inductive Decoded where
  | accept (f : AshFrame)
  | drop (r : DropReason)
deriving DecidableEq, Repr

/-- Why the decoder rejects an encoded instruction. -/
inductive DecodeError where
  /-- An operation code that rule R71 reserves. -/
  | reservedOperation (code : OpCode)
  /-- Wire bytes that do not end in the flag (rule R53). -/
  | notTerminated
  /-- Wire bytes with a flag or cancel byte before the last: more than one candidate (rules R24, R52). -/
  | innerTerminator
  /-- The candidate is one the frame decoder drops (rule R88). -/
  | dropped (r : DropReason)
deriving DecidableEq, Repr

/-- The decoder's answer. -/
inductive DecodeResult where
  | ok (i : Instr)
  | rejected (e : DecodeError)
deriving DecidableEq, Repr

/-- The status results of rule R114. -/
inductive Status where
  | ok
  | linkNotReady
  | txFull
  | payloadTooLong
deriving DecidableEq, Repr

/-- What an operation returns (rule R71's result column). -/
inductive Result where
  /-- SEND_DATA's `OK(frame_number)` (rule R97). -/
  | sent (frameNumber : Num3)
  /-- RESET's `OK` and every refusal status of SEND_DATA and RESET (rules R97, R99, R114). -/
  | status (st : Status)
  /-- FEED's `bytes_consumed` (rule R100). -/
  | consumed (n : Nat)
  /-- POLL_OUTGOING's `Some(frame)` or `None` (rule R107). -/
  | polled (frame : Option Bytes)
  /-- RECV_FRAME's `Some(f)` or `None` (rule R108). -/
  | received (frame : Option AshFrame)
  /-- READ_STATUS's `STATUS`, `tx_pending`, `rx_pending`, `rx_partial` (rule R109). -/
  | statusRead (status : Byte) (txPending rxPending rxPartial : Nat)
deriving DecidableEq, Repr

end Sys2Proof
end

