-- ==== Sys2Proof/Machine/Codec.lean ====
section
/-! DEFINITION. The three leaf functions of 40_codecs.md: checksum, byte stuffing, payload mask. Each is a pure function. -/

namespace Sys2Proof

/-- The flag byte 0x7E (rules R15, R52). -/
def flagByte : Byte := 0x7E
/-- The escape byte 0x7D (rules R15, R75). -/
def escapeByte : Byte := 0x7D
/-- The cancel byte 0x1A (rules R15, R68). -/
def cancelByte : Byte := 0x1A

/-- A terminator of the receive scanner: a flag or a cancel byte (rule R15). -/
def isTerminator (b : Byte) : Bool := b == flagByte || b == cancelByte

/-- The six reserved bytes (rules R15, R75; conflict C7). -/
def reservedBytes : Bytes := [0x7E, 0x7D, 0x11, 0x13, 0x18, 0x1A]

/-- Membership in the reserved set. -/
def isReserved (b : Byte) : Bool := reservedBytes.contains b

/-- One byte of the checksum loop of rule R73. `x` stays 8 bits wide; the shifts of `x` are taken at 16 bits. -/
def crcStep (crc : U16) (b : Byte) : U16 :=
  let x : Byte := (crc >>> 8).setWidth 8 ^^^ b
  let x : Byte := x ^^^ (x >>> 4)
  let w : U16 := x.setWidth 16
  (crc <<< 8) ^^^ (w <<< 12) ^^^ (w <<< 5) ^^^ w

/-- `CRC16` (rule R73). -/
def crc16 (bs : Bytes) : U16 := bs.foldl crcStep 0xFFFF

/-- The checksum as it travels: high byte, then low byte (rule R36). -/
def crcBytes (crc : U16) : Bytes := [crc.extractLsb' 8 8, crc.extractLsb' 0 8]

/-- `Stuff` (rule R75). -/
def stuff : Bytes → Bytes
  | [] => []
  | b :: bs => if isReserved b then escapeByte :: (b ^^^ 0x20) :: stuff bs else b :: stuff bs

/-- `Unstuff` (rule R76); `none` is `BAD_ESCAPE`. -/
def unstuff : Bytes → Option Bytes
  | [] => some []
  | b :: bs =>
    if b = escapeByte then
      match bs with
      | [] => none
      | c :: cs => (unstuff cs).map ((c ^^^ 0x20) :: ·)
    else (unstuff bs).map (b :: ·)

/-- One step of the mask generator (rule R78). -/
def maskStep (m : Byte) : Byte := if m.getLsbD 0 then (m >>> 1) ^^^ 0xB8 else m >>> 1

/-- `Mask(i)`: the i-th output of a fresh generator (rule R78). -/
def mask : Nat → Byte
  | 0 => 0x42
  | i + 1 => maskStep (mask i)

/-- The generator run along a byte string from the value `m`: output, then step (rule R78). -/
def maskFrom : Byte → Bytes → Bytes
  | _, [] => []
  | m, b :: bs => (b ^^^ m) :: maskFrom (maskStep m) bs

/-- `MaskPayload` (rule R79): a fresh generator per frame, seeded at 0x42. -/
def maskPayload (p : Bytes) : Bytes := maskFrom 0x42 p

end Sys2Proof
end

