-- ==== Sys2Proof/Config.lean ====
section
/-! DEFINITION. The configuration parameters of rule R8, and the one the spec leaves OPEN. -/

namespace Sys2Proof

/-- The parameter record of rule R8. A capacity is `none` for `∞`.
It is fixed for the lifetime of a model instance (rule R30): State carries it, and no step writes it (log entry 4). -/
structure Config where
  /-- `GATE_SEND_ON_READY`: when true, SEND_DATA is refused while `ready = 0` (rules R8, R97; decision D6). -/
  gateSendOnReady : Bool
  /-- `RX_BUF_CAP`: most raw bytes of one partial candidate (rules R8, R103; decision D10). -/
  rxBufCap : Option Nat
  /-- `TX_QUEUE_CAP`: most encoded frames in `tx_queue` (rules R8, R97, R99, R106; decision D11). -/
  txQueueCap : Option Nat
  /-- `RX_FRAME_CAP`: most decoded frames in `rx_frames` (rules R8, R105; decision D12). -/
  rxFrameCap : Option Nat
  /-- `MAX_PAYLOAD`: longest DATA payload, on send and on receive (rules R8, R88, R97; decision D13). -/
  maxPayload : Option Nat
  /-- `ERROR_CODES`: the known set of Error status codes (rules R8, R70, R90; decision D14), a set held as a list of which
  only membership is ever read (log entry 15). -/
  errorCodes : Bytes
deriving DecidableEq, Repr

/-- `ERROR_CODES` is "OPEN, no default" (rule R8): which codes a machine after reset knows is a free value, a constant with
no body, so nothing can be proved of it. DESIGN CHOICE, safe (log entry 5). -/
opaque openErrorCodes : Bytes

/-- The defaults of rule R8, with the OPEN set left free. -/
def Config.default : Config :=
  { gateSendOnReady := false, rxBufCap := none, txQueueCap := none, rxFrameCap := none, maxPayload := none,
    errorCodes := openErrorCodes }

end Sys2Proof
end

