-- ==== Sys2Proof/Machine/Operands.lean ====
section
/-! DEFINITION. Operand limits and names: the capacity, payload and error-code tests that the pseudocode of 41_frame_codec.md
and 42_host_operations.md makes, the numbers of rules R113 and R114, and the port of each instruction. -/

namespace Sys2Proof

/-- `n = cap`, the "full" test of rules R97, R99, R103, R105 and R106; never true of `∞`. -/
def atCap (cap : Option Nat) (n : Nat) : Bool :=
  match cap with
  | none => false
  | some c => n == c

/-- `n > max`, the length test of rules R88 and R97; never true of `∞`. -/
def overMax (max : Option Nat) (n : Nat) : Bool :=
  match max with
  | none => false
  | some m => decide (m < n)

/-- `F[1] in ERROR_CODES` (rules R70, R88, R90). -/
def errorCodeKnown (c : Config) (code : Byte) : Bool :=
  decide (code ∈ c.errorCodes)

/-- The code of a drop reason in rule R113's table. -/
def DropReason.number : DropReason → Nat
  | .cancelled => 1
  | .overrun => 2
  | .badEscape => 3
  | .tooShort => 4
  | .checksumMismatch => 5
  | .unknownControl => 6
  | .tooLong => 7
  | .unknownErrorCode => 8
  | .rxOverflow => 9
  | .ackLost => 10

/-- The code of a status in rule R114's table. -/
def Status.number : Status → Nat
  | .ok => 0
  | .linkNotReady => 1
  | .txFull => 2
  | .payloadTooLong => 3

/-- The status a result reports, for the operations of rule R114. -/
def Result.status? : Result → Option Status
  | .sent _ => some .ok
  | .status st => some st
  | .consumed _ => none
  | .polled _ => none
  | .received _ => none
  | .statusRead _ _ _ _ => none

/-- The port that carries an instruction (rules R71, R120); frames arrive on the line. -/
def Instr.port : Instr → Port
  | .data _ _ _ _ => .line
  | .ack _ => .line
  | .nak _ => .line
  | .rst => .line
  | .rstack => .line
  | .error _ _ => .line
  | .sendData _ => .host
  | .reset => .host
  | .feed _ => .line
  | .pollOutgoing => .line
  | .recvFrame => .host
  | .readStatus => .host

/-- The instruction that a received frame is. -/
def AshFrame.toInstr : AshFrame → Instr
  | .reset => .rst
  | .resetAck => .rstack
  | .error v k => .error v k
  | .data fn an re p => .data fn an re p
  | .ack n => .ack n
  | .nak n => .nak n

/-- The frame that a frame instruction receives; `none` for an operation. -/
def Instr.toFrame? : Instr → Option AshFrame
  | .data fn an re p => some (.data fn an re p)
  | .ack n => some (.ack n)
  | .nak n => some (.nak n)
  | .rst => some .reset
  | .rstack => some .resetAck
  | .error v k => some (.error v k)
  | .sendData _ => none
  | .reset => none
  | .feed _ => none
  | .pollOutgoing => none
  | .recvFrame => none
  | .readStatus => none

end Sys2Proof
end

