-- ==== Sys2Proof/Decode.lean ====
section
/-! DEFINITION. The frame decoder and encoder of 41_frame_codec.md, the operation codes of rule R71, the opcode table, and the
decoder and encoder of instructions. -/

namespace Sys2Proof

/-! ## The frame decoder -/

/-- Classification of a body by its control byte `c`, with field bytes `F` (rules R54, R88 to R92): everything of rule R88 after
the checksum but for the two checks that read the configuration, which `limitCheck` makes. -/
def classify (c : Byte) (F : Bytes) : Decoded :=
  if c.getLsbD 7 = false then
    .accept (.data (c.extractLsb' 4 3) (c.extractLsb' 0 3) (c.getLsbD 3) (maskPayload F))
  else if c.getLsbD 6 = false then
    if c.getLsbD 5 = false then .accept (.ack (c.extractLsb' 0 3)) else .accept (.nak (c.extractLsb' 0 3))
  else if c = 0xC0 then .accept .reset
  else if c = 0xC1 then .accept .resetAck
  else if c = 0xC2 then
    match F with
    | v :: k :: _ => .accept (.error v k)
    | _ => .drop .tooShort
  else .drop .unknownControl

/-- The trailing two bytes of a body, big-endian (rules R36, R88). -/
def trailer (B : Bytes) : U16 := B.getD (B.length - 2) 0 ++ B.getD (B.length - 1) 0

/-- Rule R88 up to the configuration checks: unstuff, length, checksum, classification. -/
def parseCandidate (raw : Bytes) : Decoded :=
  match unstuff raw with
  | none => .drop .badEscape
  | some B =>
    if B.length < 3 then .drop .tooShort
    else if crc16 (B.take (B.length - 2)) ≠ trailer B then .drop .checksumMismatch
    else classify (B.headD 0) ((B.take (B.length - 2)).drop 1)

/-- The two checks of rule R88 that read the configuration: `MAX_PAYLOAD` for DATA, `ERROR_CODES` for Error. A frame has one
type, and each check is the last of its type, so making them after `classify` keeps rule R88's order (log entry 19). -/
def limitCheck (c : Config) (f : AshFrame) : Option DropReason :=
  match f with
  | .data _ _ _ p => if overMax c.maxPayload p.length then some .tooLong else none
  | .error _ k => if errorCodeKnown c k then none else some .unknownErrorCode
  | .reset => none
  | .resetAck => none
  | .ack _ => none
  | .nak _ => none

/-- `DecodeCandidate` (rule R88). -/
def decodeCandidate (c : Config) (raw : Bytes) : Decoded :=
  match parseCandidate raw with
  | .drop r => .drop r
  | .accept f =>
    match limitCheck c f with
    | some r => .drop r
    | none => .accept f

/-! ## The operation decoder -/

/-- The operation a 4-bit code selects, with its operand (rule R71). Codes 0x0 and 0x7 to 0xF are reserved. An operation that
takes no operand does not look at the operand bytes (log entry 9). -/
def decodeOperation (code : OpCode) (operand : Bytes) : DecodeResult :=
  if code = 0x1 then .ok (.sendData operand)
  else if code = 0x2 then .ok .reset
  else if code = 0x3 then .ok (.feed operand)
  else if code = 0x4 then .ok .pollOutgoing
  else if code = 0x5 then .ok .recvFrame
  else if code = 0x6 then .ok .readStatus
  else .rejected (.reservedOperation code)

/-- The instruction one frame's wire bytes are: they end in the flag, hold no other terminator (rules R52, R53), and the
candidate before the flag decodes. -/
def decodeWire (wire : Bytes) : DecodeResult :=
  if wire.getLast? ≠ some flagByte then .rejected .notTerminated
  else if wire.dropLast.any isTerminator then .rejected .innerTerminator
  else
    match parseCandidate wire.dropLast with
    | .accept f => .ok f.toInstr
    | .drop r => .rejected (.dropped r)

/-- The decoder, total on everything either port can carry. -/
def decode : Encoded → DecodeResult
  | .frame wire => decodeWire wire
  | .call code operand => decodeOperation code operand

/-! ## The encoder -/

/-- The control byte of a frame (rule R55). -/
def controlByte : AshFrame → Byte
  | .data fn an re _ => (fn.setWidth 8 <<< 4) ||| ((BitVec.ofBool re).setWidth 8 <<< 3) ||| an.setWidth 8
  | .ack n => 0x80 ||| n.setWidth 8
  | .nak n => 0xA0 ||| n.setWidth 8
  | .reset => 0xC0
  | .resetAck => 0xC1
  | .error _ _ => 0xC2

/-- The field bytes of a frame (rules R82 to R87): the masked payload of DATA, version and code of Error. -/
def fieldBytes : AshFrame → Bytes
  | .data _ _ _ p => maskPayload p
  | .error v k => [v, k]
  | .ack _ => []
  | .nak _ => []
  | .reset => []
  | .resetAck => []

/-- `Body(f)` without its checksum (rules R82 to R87). -/
def body (f : AshFrame) : Bytes := controlByte f :: fieldBytes f

/-- The candidate of a body: the body and its checksum, stuffed; everything of a frame but its flag (rules R51, R65, R81). -/
def sealBody (b : Bytes) : Bytes := stuff (b ++ crcBytes (crc16 b))

/-- `EncodeFrame` (rules R51, R81). -/
def encodeFrame (f : AshFrame) : Bytes := sealBody (body f) ++ [flagByte]

/-- The encoder of instructions: a frame by its wire bytes, an operation by its code and operand (rule R71). -/
def encode : Instr → Encoded
  | .data fn an re p => .frame (encodeFrame (.data fn an re p))
  | .ack n => .frame (encodeFrame (.ack n))
  | .nak n => .frame (encodeFrame (.nak n))
  | .rst => .frame (encodeFrame .reset)
  | .rstack => .frame (encodeFrame .resetAck)
  | .error v k => .frame (encodeFrame (.error v k))
  | .sendData p => .call 0x1 p
  | .reset => .call 0x2 []
  | .feed bs => .call 0x3 bs
  | .pollOutgoing => .call 0x4 []
  | .recvFrame => .call 0x5 []
  | .readStatus => .call 0x6 []

/-! ## The opcode table and its words -/

/-- One row of spec/opcode_table.json: the code space it stands in, its mask and its match. -/
structure TableRow where
  isFrame : Bool
  mask : Byte
  pattern : Byte
deriving DecidableEq, Repr

/-- Does a control byte, or an operation code in the low four bits, match the row? -/
def TableRow.matches (r : TableRow) (w : Byte) : Bool := (w &&& r.mask) == r.pattern

/-- The rows of spec/opcode_table.json, in its order. -/
def opcodeTable : List TableRow :=
  [⟨true, 0x80, 0x00⟩, ⟨true, 0xE0, 0x80⟩, ⟨true, 0xE0, 0xA0⟩, ⟨true, 0xFF, 0xC0⟩, ⟨true, 0xFF, 0xC1⟩, ⟨true, 0xFF, 0xC2⟩,
   ⟨false, 0x0F, 0x01⟩, ⟨false, 0x0F, 0x02⟩, ⟨false, 0x0F, 0x03⟩, ⟨false, 0x0F, 0x04⟩, ⟨false, 0x0F, 0x05⟩, ⟨false, 0x0F, 0x06⟩]

/-- The row of an instruction. -/
def Instr.row : Instr → TableRow
  | .data _ _ _ _ => ⟨true, 0x80, 0x00⟩
  | .ack _ => ⟨true, 0xE0, 0x80⟩
  | .nak _ => ⟨true, 0xE0, 0xA0⟩
  | .rst => ⟨true, 0xFF, 0xC0⟩
  | .rstack => ⟨true, 0xFF, 0xC1⟩
  | .error _ _ => ⟨true, 0xFF, 0xC2⟩
  | .sendData _ => ⟨false, 0x0F, 0x01⟩
  | .reset => ⟨false, 0x0F, 0x02⟩
  | .feed _ => ⟨false, 0x0F, 0x03⟩
  | .pollOutgoing => ⟨false, 0x0F, 0x04⟩
  | .recvFrame => ⟨false, 0x0F, 0x05⟩
  | .readStatus => ⟨false, 0x0F, 0x06⟩

/-- The header an instruction is encoded with: its control byte (rule R55) or its operation code in the low four bits (rule R71). -/
def header (i : Instr) : Byte :=
  match i.toFrame? with
  | some f => controlByte f
  | none =>
    match encode i with
    | .call code _ => code.setWidth 8
    | .frame _ => 0

/-- The `n` bytes of `w`, least significant first, as spec/opcode_table.json's bits are numbered for the host. -/
def tableBytes (n w : Nat) : Bytes := (List.range n).map fun k => BitVec.ofNat 8 (w / 256 ^ k)

/-- The field bytes a table word leaves out are zero: an Error frame has two (rule R61), no other type needs any. -/
def padFields (c : Byte) (F : Bytes) : Bytes :=
  if c = 0xC2 then F ++ List.replicate (2 - F.length) 0 else F

/-- What a word of the opcode table stands for (log entry 7). The table's two code spaces overlap when both are numbered as
bytes: 0x01 to 0x06 are read as operation codes, every other byte as a control byte; a word of at most four bits is an operation
code. A control byte is completed to a frame: absent fields zero, the checksum computed (a checksum of zeros would be no frame). -/
def tableWord (nbits w : Nat) : Encoded :=
  if nbits ≤ 4 then .call (BitVec.ofNat 4 w) []
  else
    match tableBytes ((nbits + 7) / 8) w with
    | [] => .frame []
    | h :: rest =>
      if 1 ≤ h.toNat ∧ h.toNat ≤ 6 then .call (h.setWidth 4) rest
      else .frame (sealBody (h :: padFields h rest) ++ [flagByte])

/-- The instruction this decoder reads from a word of spec/opcode_table.json, `none` where it rejects it. -/
def decodeTableWord (nbits w : Nat) : Option Instr :=
  match decode (tableWord nbits w) with
  | .ok i => some i
  | .rejected _ => none

end Sys2Proof
end

