-- ==== Sys2Proof/Machine/State.lean ====
section
/-! DEFINITION. The state of the framer: the register record of rule R16, the configuration it is run under, the calls its
agents have issued, and what a run shows (rule R138). No memory and no program counter exist (rules R22, R33). -/

namespace Sys2Proof.Machine

open Sys2Proof

/-- The state. The first seven fields are rule R16's record, "the framer's whole architectural state"; `STATUS` and the three
counts are functions of them (rules R28, R29) and are not stored. The last four are the model's own. -/
structure State where
  /-- `tx_frame_num` (rule R17): the frame number the next SEND_DATA assigns. -/
  txFrameNum : Num3
  /-- `ack_num` (rule R18): the ack number echoed in outgoing DATA and ACK frames. -/
  ackNum : Num3
  /-- `ready` (rule R19): the link-ready flag. -/
  ready : Bool
  /-- `rx_discarding` (rule R20): set while an over-long candidate is skipped. -/
  rxDiscarding : Bool
  /-- `rx_buf` (rule R23): raw received bytes after the last terminator. -/
  rxBuf : Bytes
  /-- `tx_queue` (rule R25): encoded frames waiting for POLL_OUTGOING, oldest first. -/
  txQueue : List Bytes
  /-- `rx_frames` (rule R27): accepted frames waiting for RECV_FRAME, oldest first. -/
  rxFrames : List AshFrame
  /-- The parameters of rule R8, fixed for the instance of the model (rules R30, R35; log entry 4). The model's own field. -/
  config : Config
  /-- The calls issued and not yet run, oldest first (rules R43, R96; log entry 1). The model's own field. -/
  pending : List Request
  /-- The results returned, oldest first (rule R138; log entry 2). The model's own field. -/
  results : List Result
  /-- The ghost drop log of rules R32 and R113, oldest first; no operation reads it (log entry 3). The model's own field. -/
  dropLog : List DropReason
deriving DecidableEq, Repr

/-- Faults: there are none. "No behaviour of the framer is modelled as `fault` or `stuck`" (93_implementation_defined.md), and
the framer raises no exceptions (rule R112); so the type has no constructor (log entry 18). -/
inductive Fault where
deriving DecidableEq, Repr

/-- Refusals. -/
inductive Refusal where
  /-- Raised by an arm of `exec` for an instruction that has no meaning in the model yet; no arm raises it. Safe. -/
  | notModelled (mnemonic : String)
  /-- Raised by `step` for a call with a reserved operation code, 0x0 or 0x7 to 0xF: "A model refuses an operation with a
  reserved code" (rules R71, R96, R114). Safe. -/
  | reservedOperation (code : OpCode)
deriving DecidableEq, Repr

/-- The registers of rule R16 at the values of rule R34, under configuration `c`, with no call issued and nothing shown yet. -/
def State.resetWith (c : Config) : State :=
  { txFrameNum := 0, ackNum := 0, ready := false, rxDiscarding := false, rxBuf := [], txQueue := [], rxFrames := [],
    config := c, pending := [], results := [], dropLog := [] }

/-- The machine right after hardware reset (rules R34, R127), under the default parameters of rule R8. -/
def State.reset : State := State.resetWith Config.default

end Sys2Proof.Machine
end

