-- ==== Sys2Proof/Machine/Ops.lean ====
section
/-! DEFINITION. The named operations over the registers and queues: the primitives of rule R13, and Deliver, AutoAck and
AcceptFrame of rules R104 to R106. There is no exception to take and none to return from (rules R112, R118, R119). -/

namespace Sys2Proof.Machine

open Sys2Proof

/-- `return r`: the result joins the observation of the run (rules R13, R138). -/
def State.record (s : State) (r : Result) : State := { s with results := s.results ++ [r] }

/-- `drop(r)` and the two loss events: only the ghost log changes (rules R13, R113). -/
def State.drop (s : State) (r : DropReason) : State := { s with dropLog := s.dropLog ++ [r] }

/-- `TxPush(bs)` (rule R13). -/
def State.txPush (s : State) (bs : Bytes) : State := { s with txQueue := s.txQueue ++ [bs] }

/-- `RxFramePush(f)` (rule R13). -/
def State.rxFramePush (s : State) (f : AshFrame) : State := { s with rxFrames := s.rxFrames ++ [f] }

/-- The write of `ack_num` (rule R18). -/
def State.setAckNum (s : State) (n : Num3) : State := { s with ackNum := n }

/-- The write of `ready` (rule R19). -/
def State.setReady (s : State) (b : Bool) : State := { s with ready := b }

/-- The write of `rx_buf` and `rx_discarding` (rules R20, R23). -/
def State.setRx (s : State) (buf : Bytes) (discarding : Bool) : State := { s with rxBuf := buf, rxDiscarding := discarding }

/-- The calls not yet run (log entry 1). -/
def State.setPending (s : State) (rs : List Request) : State := { s with pending := rs }

/-- `len(tx_queue) = TX_QUEUE_CAP` (rules R97, R99, R106). -/
def txFull (s : State) : Bool := atCap s.config.txQueueCap s.txQueue.length

/-- `len(rx_frames) = RX_FRAME_CAP` (rule R105). -/
def rxFramesFull (s : State) : Bool := atCap s.config.rxFrameCap s.rxFrames.length

/-- `len(rx_buf) = RX_BUF_CAP` (rule R103). -/
def rxBufFull (s : State) : Bool := atCap s.config.rxBufCap s.rxBuf.length

/-- `Deliver(f)` (rule R105). -/
def deliver (f : AshFrame) (s : State) : State :=
  if rxFramesFull s then s.drop .rxOverflow else s.rxFramePush f

/-- `AutoAck()` (rule R106). -/
def autoAck (s : State) : State :=
  if txFull s then s.drop .ackLost else s.txPush (encodeFrame (.ack s.ackNum))

/-- AcceptFrame of a DATA frame (rule R104; conflict C5): `ack_num`, then the automatic ACK, then delivery. -/
def acceptData (fn an : Num3) (re : Bool) (p : Bytes) (s : State) : State :=
  deliver (.data fn an re p) (autoAck (s.setAckNum (fn + 1)))

/-- AcceptFrame of a ResetAck frame (rule R104). -/
def acceptResetAck (s : State) : State := deliver .resetAck (s.setReady true)

/-- AcceptFrame of an ACK frame (rule R104). -/
def acceptAck (n : Num3) (s : State) : State := deliver (.ack n) s

/-- AcceptFrame of a NAK frame (rule R104). -/
def acceptNak (n : Num3) (s : State) : State := deliver (.nak n) s

/-- AcceptFrame of a Reset frame (rule R104). -/
def acceptReset (s : State) : State := deliver .reset s

/-- AcceptFrame of an Error frame (rule R104). -/
def acceptError (v k : Byte) (s : State) : State := deliver (.error v k) s

/-- `AcceptFrame(f)` (rule R104). -/
def acceptFrame (f : AshFrame) (s : State) : State :=
  match f with
  | .data fn an re p => acceptData fn an re p s
  | .resetAck => acceptResetAck s
  | .ack n => acceptAck n s
  | .nak n => acceptNak n s
  | .reset => acceptReset s
  | .error v k => acceptError v k s

/-- Hardware reset, a new connection (rules R34, R127, D32): every register at its reset value. The configuration, the calls not
yet run, and what the run has shown are not registers and stay (log entry 11). -/
def hardwareReset (s : State) : State :=
  { State.resetWith s.config with pending := s.pending, results := s.results, dropLog := s.dropLog }

end Sys2Proof.Machine
end

