-- ==== Sys2Proof/Machine/Frames.lean ====
section
/-! DEFINITION. The meanings of the six frame types: what the framer does when a candidate that decodes to that frame ends
(rules R88, R102, R104), from the configuration checks on (log entry 6). -/

namespace Sys2Proof.Machine

open Sys2Proof

/-- DATA (rules R56, R88, R89, R104). -/
def execData (fn an : Num3) (re : Bool) (p : Bytes) (s : State) : Host.Outcome State Fault Refusal :=
  .next (if overMax s.config.maxPayload p.length then s.drop .tooLong else acceptData fn an re p s)

/-- ACK (rules R57, R91, R104). -/
def execAck (n : Num3) (s : State) : Host.Outcome State Fault Refusal := .next (acceptAck n s)

/-- NAK (rules R58, R91, R104). -/
def execNak (n : Num3) (s : State) : Host.Outcome State Fault Refusal := .next (acceptNak n s)

/-- RST (rules R59, R92, R104). -/
def execRst (s : State) : Host.Outcome State Fault Refusal := .next (acceptReset s)

/-- RSTACK (rules R60, R92, R104). -/
def execRstack (s : State) : Host.Outcome State Fault Refusal := .next (acceptResetAck s)

/-- ERROR (rules R61, R70, R90, R104). -/
def execError (v k : Byte) (s : State) : Host.Outcome State Fault Refusal :=
  .next (if errorCodeKnown s.config k then acceptError v k s else s.drop .unknownErrorCode)

end Sys2Proof.Machine
end

