-- ==== Sys2Proof/Machine/Receive.lean ====
section
/-! DEFINITION. The receive scanner and its operations: FEED (rules R100 to R103) and RECV_FRAME (rule R108). -/

namespace Sys2Proof.Machine

open Sys2Proof

/-- The end of a candidate: decode it, then drop it or accept it (rules R88, R102). -/
def endCandidate (raw : Bytes) (s : State) : State :=
  match decodeCandidate s.config raw with
  | .drop r => s.drop r
  | .accept f => acceptFrame f s

/-- `FeedByte(0x1A)`, the cancel byte (rule R101). -/
def feedCancel (s : State) : State := (s.setRx [] false).drop .cancelled

/-- `FeedByte(0x7E)`, the flag byte (rule R102). -/
def feedFlag (s : State) : State :=
  if s.rxDiscarding then (s.setRx [] false).drop .overrun else endCandidate s.rxBuf (s.setRx [] false)

/-- `FeedByte(b)` for any other byte (rule R103). -/
def feedOther (b : Byte) (s : State) : State :=
  if s.rxDiscarding then s
  else if rxBufFull s then s.setRx [] true
  else s.setRx (s.rxBuf ++ [b]) s.rxDiscarding

/-- `FeedByte(b)` (rules R101 to R103). -/
def feedByte (s : State) (b : Byte) : State :=
  if b = cancelByte then feedCancel s else if b = flagByte then feedFlag s else feedOther b s

/-- The bytes of one FEED, in order (rule R100). -/
def feedBytes (bs : Bytes) (s : State) : State := bs.foldl feedByte s

/-- FEED (rule R100): every byte is taken. -/
def execFeed (bs : Bytes) (s : State) : Host.Outcome State Fault Refusal :=
  .next ((feedBytes bs s).record (.consumed bs.length))

/-- RECV_FRAME (rule R108). -/
def execRecvFrame (s : State) : Host.Outcome State Fault Refusal :=
  .next (match s.rxFrames with
    | [] => s.record (.received none)
    | f :: rest => ({ s with rxFrames := rest }).record (.received (some f)))

end Sys2Proof.Machine
end

