-- ==== Sys2Proof/Machine/Flags.lean ====
section
/-! DEFINITION. The read-only `STATUS` register, a view of the flags and counters, and the occupancy counts. -/

namespace Sys2Proof.Machine

open Sys2Proof

/-- `STATUS` (rules R28, R109): READY[7], TX_FN[6:4], RX_DISC[3], ACK_NUM[2:0]. -/
def statusByte (s : State) : Byte :=
  ((BitVec.ofBool s.ready).setWidth 8 <<< 7) ||| (s.txFrameNum.setWidth 8 <<< 4)
    ||| ((BitVec.ofBool s.rxDiscarding).setWidth 8 <<< 3) ||| s.ackNum.setWidth 8

/-- `tx_pending`, in frames (rule R29). -/
def txPending (s : State) : Nat := s.txQueue.length

/-- `rx_pending`, in frames (rule R29). -/
def rxPending (s : State) : Nat := s.rxFrames.length

/-- `rx_partial`, in bytes (rule R29). -/
def rxPartial (s : State) : Nat := s.rxBuf.length

end Sys2Proof.Machine
end

