-- ==== Sys2Proof/Machine/Status.lean ====
section
/-! DEFINITION. READ_STATUS (rule R109). -/

namespace Sys2Proof.Machine

open Sys2Proof

/-- READ_STATUS (rules R28, R29, R109): no register is written. -/
def execReadStatus (s : State) : Host.Outcome State Fault Refusal :=
  .next (s.record (.statusRead (statusByte s) (txPending s) (rxPending s) (rxPartial s)))

end Sys2Proof.Machine
end

