-- ==== Sys2Proof/Machine/Transmit.lean ====
section
/-! DEFINITION. The transmit operations: SEND_DATA (rule R97), RESET (rule R99), POLL_OUTGOING (rule R107). -/

namespace Sys2Proof.Machine

open Sys2Proof

/-- SEND_DATA (rules R97, R98, R117): the refusals in their order, each with the state unchanged (rule R96), else the frame. -/
def execSendData (p : Bytes) (s : State) : Host.Outcome State Fault Refusal :=
  .next (
    if s.config.gateSendOnReady && !s.ready then s.record (.status .linkNotReady)
    else if overMax s.config.maxPayload p.length then s.record (.status .payloadTooLong)
    else if txFull s then s.record (.status .txFull)
    else
      ({ s.txPush (encodeFrame (.data s.txFrameNum s.ackNum false p)) with txFrameNum := s.txFrameNum + 1 }).record
        (.sent s.txFrameNum))

/-- RESET (rules R99, R128). -/
def execReset (s : State) : Host.Outcome State Fault Refusal :=
  .next (
    if txFull s then s.record (.status .txFull)
    else ((s.txPush (encodeFrame .reset)).setReady false).record (.status .ok))

/-- POLL_OUTGOING (rule R107). -/
def execPollOutgoing (s : State) : Host.Outcome State Fault Refusal :=
  .next (match s.txQueue with
    | [] => s.record (.polled none)
    | w :: rest => ({ s with txQueue := rest }).record (.polled (some w)))

end Sys2Proof.Machine
end

