-- ==== Sys2Proof/Machine/Dispatch.lean ====
section
/-! DEFINITION. The dispatch: one arm per instruction. -/

namespace Sys2Proof.Machine

open Sys2Proof

-- The frame types (30_encoding.md), then the operations (42_host_operations.md).
def exec (i : Instr) (s : State) : Host.Outcome State Fault Refusal :=
  match i with
  | .data fn an re p => Sys2Proof.Machine.execData fn an re p s
  | .ack n => Sys2Proof.Machine.execAck n s
  | .nak n => Sys2Proof.Machine.execNak n s
  | .rst => Sys2Proof.Machine.execRst s
  | .rstack => Sys2Proof.Machine.execRstack s
  | .error v k => Sys2Proof.Machine.execError v k s
  | .sendData p => Sys2Proof.Machine.execSendData p s
  | .reset => Sys2Proof.Machine.execReset s
  | .feed bs => Sys2Proof.Machine.execFeed bs s
  | .pollOutgoing => Sys2Proof.Machine.execPollOutgoing s
  | .recvFrame => Sys2Proof.Machine.execRecvFrame s
  | .readStatus => Sys2Proof.Machine.execReadStatus s

end Sys2Proof.Machine
end

