-- ==== Sys2Proof/Machine/Fetch.lean ====
section
/-! DEFINITION. How the machine takes its next call, and how the host's table words are placed for it. Step.lean only calls these. -/

namespace Sys2Proof.Machine

open Sys2Proof

/-- What a step finds to do. -/
inductive Fetched where
  /-- No call is pending: the framer acts only inside calls (rule R123; log entry 10). -/
  | idle
  /-- Hardware reset (rule R127), with the state it leads to. -/
  | restart (s : State)
  /-- An operation, with the state it runs on: the call has left `pending`. -/
  | run (i : Instr) (s : State)
  /-- A call with a reserved operation code (rules R71, R114). -/
  | reserved (code : OpCode)
deriving DecidableEq, Repr

/-- Take the oldest pending call and decode it (rules R43, R71, R96). -/
def fetch (s : State) : Fetched :=
  match s.pending with
  | [] => .idle
  | .hardwareReset :: rest => .restart (hardwareReset (s.setPending rest))
  | .call code operand :: rest =>
    match decodeOperation code operand with
    | .ok i => .run i (s.setPending rest)
    | .rejected _ => .reserved code

/-- Place an encoded instruction so that the next step runs it (log entry 8): an operation as the next call; a frame as the
candidate held in `rx_buf`, with a FEED of the flag that ends it as the next call. -/
def place (e : Encoded) (s : State) : State :=
  match e with
  | .call code operand => s.setPending (.call code operand :: s.pending)
  | .frame wire => (s.setRx wire.dropLast false).setPending (.call 0x3 [flagByte] :: s.pending)

end Sys2Proof.Machine
end

