-- ==== Sys2Proof/Machine/Step.lean ====
section
/-! DEFINITION. One step of the machine: one call, run whole (rules R40, R96). -/

namespace Sys2Proof.Machine

open Sys2Proof

/-- One step: the oldest pending call is taken and run as one atomic operation (rules R40, R43, R96). With none pending nothing
happens; a reserved operation code is refused. -/
def step (s : State) : Host.Outcome State Fault Refusal :=
  match fetch s with
  | .idle => .next s
  | .restart t => .next t
  | .run i t => exec i t
  | .reserved code => .refused (.reservedOperation code)

/-- The state whose next step runs the instruction of a word of spec/opcode_table.json (log entry 8). -/
def State.withFetchWord (s : State) (nbits w : Nat) : State := place (tableWord nbits w) s

end Sys2Proof.Machine
end

