-- ==== Sys2Proof/Safety.lean ====
section
/-! DEFINITION. The invariants a framer keeps between operations, in the terms the statements use. -/

namespace Sys2Proof.Machine

open Sys2Proof

/-- A count within a capacity. -/
def withinCap (cap : Option Nat) (n : Nat) : Prop := ∀ c, cap = some c → n ≤ c

/-- Rule R24, its three clauses in their order. -/
structure State.RxInv (s : State) : Prop where
  noTerminator : ∀ b ∈ s.rxBuf, b ≠ flagByte ∧ b ≠ cancelByte
  withinBuffer : withinCap s.config.rxBufCap s.rxBuf.length
  discardingEmpty : s.rxDiscarding = true → s.rxBuf = []

/-- A frame the framer itself can put on the line: a DATA frame with the retransmit bit 0 (rule R63), an ACK, or a Reset; never
a NAK, a ResetAck or an Error (rules R84, R86, R104, R106). -/
inductive SentByFramer : AshFrame → Prop where
  | data (fn an : Num3) (p : Bytes) : SentByFramer (.data fn an false p)
  | ack (n : Num3) : SentByFramer (.ack n)
  | reset : SentByFramer .reset

/-- Rules R25 and R26: every entry of `tx_queue` is one encoded frame of a type the framer sends, and the queue is within its
capacity. -/
structure State.TxInv (s : State) : Prop where
  encoded : ∀ w ∈ s.txQueue, ∃ f, SentByFramer f ∧ w = encodeFrame f
  withinQueue : withinCap s.config.txQueueCap s.txQueue.length

/-- Rules R27, R70 and R88: every delivered frame passed the configuration checks, and the queue is within its capacity. -/
structure State.FramesInv (s : State) : Prop where
  checked : ∀ f ∈ s.rxFrames, limitCheck s.config f = none
  withinQueue : withinCap s.config.rxFrameCap s.rxFrames.length

/-- Rule R20: `rx_discarding` can only be 1 when `RX_BUF_CAP` is finite. -/
def State.DiscardingOnlyIfFinite (s : State) : Prop := s.rxDiscarding = true → s.config.rxBufCap ≠ none

/-- The whole invariant. -/
structure State.Inv (s : State) : Prop where
  rx : s.RxInv
  tx : s.TxInv
  frames : s.FramesInv
  discarding : s.DiscardingOnlyIfFinite

/-- The same registers (rule R16): what a refused operation leaves (rule R96) and a dropped candidate does not touch. -/
def State.SameRegisters (s t : State) : Prop :=
  t.txFrameNum = s.txFrameNum ∧ t.ackNum = s.ackNum ∧ t.ready = s.ready ∧ t.rxDiscarding = s.rxDiscarding ∧
    t.rxBuf = s.rxBuf ∧ t.txQueue = s.txQueue ∧ t.rxFrames = s.rxFrames

end Sys2Proof.Machine
end

