-- ==== Sys2Proof/WellFormed.lean ====
section
/-! DEFINITION. Well-formed instructions. The types already bound every 3-bit and 8-bit field (rules R9, R62), so every
instruction can be encoded; what is left to check is the premise of the round trip of rule R94: a DATA frame within `MAX_PAYLOAD`
and an Error frame with a known code. -/

namespace Sys2Proof

/-- The premise of rule R94 for the frame types; true of every operation. -/
def Instr.wf (c : Config) (i : Instr) : Bool :=
  match i with
  | .data _ _ _ p => !overMax c.maxPayload p.length
  | .error _ k => errorCodeKnown c k
  | .ack _ => true
  | .nak _ => true
  | .rst => true
  | .rstack => true
  | .sendData _ => true
  | .reset => true
  | .feed _ => true
  | .pollOutgoing => true
  | .recvFrame => true
  | .readStatus => true

end Sys2Proof
end

