-- ==== Sys2Proof/Certificates/Slice0/Obligations.lean ====
section
/-! DEFINITION. The statements for the provers. Each names the rule of spec/ it formalises; where a clause rests on a decision or an
inference the spec marks as its own, or on a choice of the model, the docstring says so. -/

namespace Sys2Proof.Reading

open Sys2Proof Sys2Proof.Machine

/-- The pseudocode of rule R73 on plain numbers, `trunc8` and `trunc16` written as remainders (rule R11). -/
def crcNat (bs : List Nat) : Nat :=
  bs.foldl (fun crc b =>
    let x := ((crc >>> 8) ^^^ b) % 256
    let y := x ^^^ (x >>> 4)
    ((crc <<< 8) ^^^ (y <<< 12) ^^^ (y <<< 5) ^^^ y) % 65536) 0xFFFF

/-- `len > max` for a limit that may be `∞`. -/
def exceeds (max : Option Nat) (len : Nat) : Bool := max.any fun m => decide (m < len)

/-- The pseudocode of rule R88, in its own order and on numbers. -/
def decodeByR88 (cfg : Config) (raw : Bytes) : Decoded :=
  match unstuff raw with
  | none => .drop .badEscape
  | some B =>
    let n := B.length
    if n < 3 then .drop .tooShort
    else if (crc16 (B.take (n - 2))).toNat ≠ (B[n - 2]!.toNat <<< 8) ||| B[n - 1]!.toNat then .drop .checksumMismatch
    else
      let c := B[0]!.toNat
      let F := (B.drop 1).take (n - 3)
      if c < 0x80 then
        if exceeds cfg.maxPayload F.length then .drop .tooLong
        else .accept (.data (BitVec.ofNat 3 (c / 16)) (BitVec.ofNat 3 (c % 8)) (decide (c / 8 % 2 = 1)) (maskPayload F))
      else if c < 0xA0 then .accept (.ack (BitVec.ofNat 3 (c % 8)))
      else if c < 0xC0 then .accept (.nak (BitVec.ofNat 3 (c % 8)))
      else if c = 0xC0 then .accept .reset
      else if c = 0xC1 then .accept .resetAck
      else if c = 0xC2 then
        if F.length < 2 then .drop .tooShort
        else if F[1]! ∉ cfg.errorCodes then .drop .unknownErrorCode
        else .accept (.error F[0]! F[1]!)
      else .drop .unknownControl

/-- The source's own reading of `feed`, quoted in rule R100: the whole input stands in the buffer; take everything up to the first
terminator as a candidate, and repeat. The first argument bounds the number of candidates. -/
def scanBuffer : Nat → State → State
  | 0, s => s
  | k + 1, s =>
    match s.rxBuf.dropWhile (fun b => !isTerminator b) with
    | [] => s
    | t :: rest =>
      let raw := s.rxBuf.takeWhile (fun b => !isTerminator b)
      if t = cancelByte then scanBuffer k ((s.setRx rest false).drop .cancelled)
      else scanBuffer k (endCandidate raw (s.setRx rest false))

/-- Feeding `bs` from `s`, one of the flags in `bs` ends a candidate that decodes to `f` and is not being discarded: the candidate is
what the scanner holds in `rx_buf` when it reaches that flag. -/
def AcceptedWhileFeeding (s : State) (bs : Bytes) (f : AshFrame) : Prop :=
  ∃ pre post : Bytes, bs = pre ++ 0x7E :: post ∧ (pre.foldl feedByte s).rxDiscarding = false ∧
    decodeCandidate s.config (pre.foldl feedByte s).rxBuf = .accept f

/-- `n` steps, each answering a next state. -/
def Steps : Nat → State → State → Prop
  | 0, s, t => s = t
  | k + 1, s, t => ∃ u, step s = .next u ∧ Steps k u t

/-- SEND_DATA run once for each payload, each answering a next state. -/
def SendAll : List Bytes → State → State → Prop
  | [], s, t => s = t
  | p :: ps, s, t => ∃ u, exec (.sendData p) s = .next u ∧ SendAll ps u t

end Sys2Proof.Reading

open Sys2Proof Sys2Proof.Machine Sys2Proof.Reading

/-! ## Codec primitives (40_codecs.md) -/

/-- Rule R73: `CRC16` computes what its pseudocode says, on every byte sequence; its corner cases and its example. -/
def Obligations.CrcFollowsPseudocode : Prop :=
  (∀ bs : Bytes, (crc16 bs).toNat = crcNat (bs.map BitVec.toNat)) ∧
  crc16 [] = 0xFFFF ∧ crc16 [0x00] = 0xE1F0 ∧ crc16 [0x7E] = 0x7EA9 ∧ crc16 [0x25, 0x42, 0x21, 0xA8, 0x56] = 0xA609

/-- The residue law of rule R74, which the spec marks as derived: a string followed by its own checksum has checksum 0, and testing
for 0 accepts exactly the bodies that comparing the trailing two bytes accepts. -/
def Obligations.CrcResidueIsZero : Prop :=
  (∀ bs : Bytes, crc16 (bs ++ crcBytes (crc16 bs)) = 0) ∧
  (∀ (bs : Bytes) (hi lo : Byte), crc16 (bs ++ [hi, lo]) = 0 ↔ crc16 bs = hi ++ lo)

/-- Rules R75 and R76: the stuffer, byte by byte, with its escaped forms and example; the unstuffer, case by case, with its failure on
an unpaired escape (the spec's decision D17; that any escaped byte is taken and that raw 0x11, 0x13 and 0x18 pass are D19 and D18). -/
def Obligations.StuffingFollowsPseudocode : Prop :=
  (∀ bs : Bytes, stuff bs =
    bs.flatMap fun b => if b ∈ ([0x7E, 0x7D, 0x11, 0x13, 0x18, 0x1A] : Bytes) then [0x7D, b ^^^ 0x20] else [b]) ∧
  ([0x7E, 0x7D, 0x11, 0x13, 0x18, 0x1A].map fun b => stuff [b]) =
    [[0x7D, 0x5E], [0x7D, 0x5D], [0x7D, 0x31], [0x7D, 0x33], [0x7D, 0x38], [0x7D, 0x3A]] ∧
  (∀ b ∈ ([0x5E, 0x5D, 0x31, 0x33, 0x38, 0x3A] : Bytes), b ∉ reservedBytes) ∧
  stuff [0x7E, 0x41, 0x7D] = [0x7D, 0x5E, 0x41, 0x7D, 0x5D] ∧
  unstuff [] = some [] ∧ unstuff [0x7D] = none ∧
  (∀ (c : Byte) (cs : Bytes), unstuff (0x7D :: c :: cs) = (unstuff cs).map fun out => (c ^^^ 0x20) :: out) ∧
  (∀ (b : Byte) (bs : Bytes), b ≠ 0x7D → unstuff (b :: bs) = (unstuff bs).map fun out => b :: out) ∧
  unstuff [0x7D, 0x41] = some [0x61] ∧ unstuff [0x7D, 0x7D] = some [0x5D] ∧ unstuff [0x11, 0x13, 0x18] = some [0x11, 0x13, 0x18] ∧
  unstuff [0x7D, 0x5E, 0x41, 0x7D, 0x5D] = some [0x7E, 0x41, 0x7D]

/-- Rule R77, which the spec marks as derived from R75 and R76: (a) round trip, (b) no raw reserved bytes, every 0x7D an escape
prefix, (c) length, (d) the reverse composition is not the identity. -/
def Obligations.StuffingLaws : Prop :=
  (∀ bs : Bytes, unstuff (stuff bs) = some bs) ∧
  (∀ (bs : Bytes) (b : Byte), b ∈ stuff bs → b ∉ ([0x7E, 0x11, 0x13, 0x18, 0x1A] : Bytes)) ∧
  (∀ (bs : Bytes) (i : Nat), (stuff bs)[i]? = some 0x7D →
    ∃ c, (stuff bs)[i + 1]? = some c ∧ c ∈ ([0x5E, 0x5D, 0x31, 0x33, 0x38, 0x3A] : Bytes)) ∧
  (∀ bs : Bytes, (stuff bs).length = bs.length + bs.countP isReserved) ∧
  (unstuff [0x7D, 0x41] = some [0x61] ∧ stuff [0x61] ≠ [0x7D, 0x41]) ∧
  (∀ r ∈ ([0x11, 0x13, 0x18] : Bytes), unstuff [r] = some [r] ∧ stuff [r] ≠ [r])

/-- Rules R78 and R79: the generator's recurrence from 0x42, that it never reaches 0, its period of 255 in which every non-zero byte
occurs once; the mask applied byte for byte with a fresh generator, and its own inverse. The period and the involution are marked
derived by the spec. -/
def Obligations.MaskLaws : Prop :=
  (mask 0 = 0x42 ∧ ∀ i, mask (i + 1) = if (mask i).getLsbD 0 = false then mask i >>> 1 else (mask i >>> 1) ^^^ 0xB8) ∧
  (∀ i, mask i ≠ 0) ∧ (∀ i, mask (i + 255) = mask i) ∧
  (∀ b : Byte, b ≠ 0 → ∃ i < 255, mask i = b ∧ ∀ j < 255, mask j = b → j = i) ∧
  mask 28 = 0x7E ∧
  (∀ (p : Bytes) (i : Nat), (maskPayload p)[i]? = (p[i]?).map (· ^^^ mask i)) ∧
  maskPayload [] = [] ∧ (∀ p : Bytes, maskPayload (maskPayload p) = p) ∧
  maskPayload [0x00, 0x00, 0x00, 0x02] = [0x42, 0x21, 0xA8, 0x56]

/-! ## Frame encodings (30_encoding.md, 41_frame_codec.md) -/

/-- Rule R54's decode map, complete over all 256 control bytes (its last row is the spec's decision D16), with the fields that rules R88
to R92 read. That an Error body with fewer than two field bytes is dropped is decision D15. `classify` leaves the two configuration
checks of rules R88 to R90 to `limitCheck`, so here an Error of any code and a DATA of any length is accepted (log entry 19). -/
def Obligations.ControlByteDecodeMap : Prop :=
  ∀ (c : Byte) (F : Bytes), classify c F =
    if c.toNat < 0x80 then
      .accept (.data (BitVec.ofNat 3 (c.toNat / 16)) (BitVec.ofNat 3 (c.toNat % 8)) (decide (c.toNat / 8 % 2 = 1)) (maskPayload F))
    else if c.toNat < 0xA0 then .accept (.ack (BitVec.ofNat 3 (c.toNat % 8)))
    else if c.toNat < 0xC0 then .accept (.nak (BitVec.ofNat 3 (c.toNat % 8)))
    else if c.toNat = 0xC0 then .accept .reset
    else if c.toNat = 0xC1 then .accept .resetAck
    else if c.toNat = 0xC2 then
      match F with
      | v :: k :: _ => .accept (.error v k)
      | _ => .drop .tooShort
    else .drop .unknownControl

/-- Rule R55: the control byte each type is encoded with (conflict C1 for Error), as numbers. -/
def Obligations.ControlByteEncodeMap : Prop :=
  (∀ (fn an : Num3) (re : Bool) (p : Bytes),
    (controlByte (.data fn an re p)).toNat = fn.toNat * 16 + (if re then 8 else 0) + an.toNat) ∧
  (∀ n : Num3, (controlByte (.ack n)).toNat = 0x80 + n.toNat ∧ (controlByte (.nak n)).toNat = 0xA0 + n.toNat) ∧
  controlByte .reset = 0xC0 ∧ controlByte .resetAck = 0xC1 ∧ ∀ v k, controlByte (.error v k) = 0xC2

/-- Rules R59 and R60: the Reset and ResetAck formats, and that the source's own ResetAck line fails the checksum and is dropped
(conflict C2). -/
def Obligations.ResetAndResetAckWireForms : Prop :=
  crc16 [0xC0] = 0x38BC ∧ encodeFrame .reset = [0xC0, 0x38, 0xBC, 0x7E] ∧
  crc16 [0xC1] = 0x289D ∧ encodeFrame .resetAck = [0xC1, 0x28, 0x9D, 0x7E] ∧
  ∀ c : Config, decodeCandidate c [0xC1, 0x38, 0xBC] = .drop .checksumMismatch

/-- The tables of rules R57 and R58, which the spec marks as derived: every ACK and NAK wire form; and the Error and DATA examples of
rules R61 and R82. -/
def Obligations.AckNakErrorDataWireForms : Prop :=
  (List.range 8).map (fun n => encodeFrame (.ack (BitVec.ofNat 3 n))) =
    [[0x80, 0x70, 0x78, 0x7E], [0x81, 0x60, 0x59, 0x7E], [0x82, 0x50, 0x3A, 0x7E], [0x83, 0x40, 0x1B, 0x7E],
     [0x84, 0x30, 0xFC, 0x7E], [0x85, 0x20, 0xDD, 0x7E], [0x86, 0x10, 0xBE, 0x7E], [0x87, 0x00, 0x9F, 0x7E]] ∧
  (List.range 8).map (fun n => encodeFrame (.nak (BitVec.ofNat 3 n))) =
    [[0xA0, 0x54, 0x7D, 0x3A, 0x7E], [0xA1, 0x44, 0x3B, 0x7E], [0xA2, 0x74, 0x58, 0x7E], [0xA3, 0x64, 0x79, 0x7E],
     [0xA4, 0x14, 0x9E, 0x7E], [0xA5, 0x04, 0xBF, 0x7E], [0xA6, 0x34, 0xDC, 0x7E], [0xA7, 0x24, 0xFD, 0x7E]] ∧
  encodeFrame (.error 0x02 0x51) = [0xC2, 0x02, 0x51, 0xA8, 0xBD, 0x7E] ∧
  encodeFrame (.data 2 5 false [0x00, 0x00, 0x00, 0x02]) = [0x25, 0x42, 0x21, 0xA8, 0x56, 0xA6, 0x09, 0x7E]

/-- Rule R52, which the spec marks as derived: an encoded frame ends in its only raw 0x7E and holds no raw 0x1A. -/
def Obligations.EncodedFrameEndsInOnlyFlag : Prop :=
  ∀ f : AshFrame, ∃ cand : Bytes, encodeFrame f = cand ++ [0x7E] ∧ (0x7E : Byte) ∉ cand ∧ (0x1A : Byte) ∉ cand

/-- Rules R53 and R67 (marked derived) and R81: with a body of n bytes, k of them reserved, the wire length is n + k + 1; so it lies
between n + 1 and 2n + 1, and is at least 4. -/
def Obligations.EncodedFrameLength : Prop :=
  ∀ f : AshFrame,
    let B := body f ++ crcBytes (crc16 (body f))
    (encodeFrame f).length = B.length + B.countP isReserved + 1 ∧
    B.length + 1 ≤ (encodeFrame f).length ∧ (encodeFrame f).length ≤ 2 * B.length + 1 ∧ 4 ≤ (encodeFrame f).length

/-- Rule R88: `DecodeCandidate` is its pseudocode, on every candidate and under every configuration (the order of the checks and the
minimum lengths are the spec's decisions D15, D17, D29). -/
def Obligations.DecodeCandidateFollowsPseudocode : Prop :=
  ∀ (c : Config) (raw : Bytes), decodeCandidate c raw = decodeByR88 c raw

/-- Rule R94, which the spec marks as derived: every frame within the limits decodes to itself from its own encoding. -/
def Obligations.FrameRoundTrip : Prop :=
  ∀ (c : Config) (f : AshFrame),
    (∀ fn an re p m, f = .data fn an re p → c.maxPayload = some m → p.length ≤ m) →
    (∀ v k, f = .error v k → k ∈ c.errorCodes) →
    decodeCandidate c ((encodeFrame f).take ((encodeFrame f).length - 1)) = .accept f

/-- Decoding the encoding of any instruction, frame or operation, gives it back, with every operand at every value (rule R94 without
the configuration's checks; rule R71). -/
def Obligations.InstructionRoundTrip : Prop := ∀ i : Instr, decode (encode i) = .ok i

/-- Rule R70 (the spec's decision D14): an Error frame whose code is not in `ERROR_CODES` is dropped, with any field bytes after its
code: by the decoder, and by the FEED of its flag, which takes the candidate out of `rx_buf` and changes no other register. -/
def Obligations.UnknownErrorCodeIsDropped : Prop :=
  ∀ (s : State) (v k : Byte) (extra : Bytes), k ∉ s.config.errorCodes →
    decodeCandidate s.config (sealBody (0xC2 :: v :: k :: extra)) = .drop .unknownErrorCode ∧
    (s.rxDiscarding = false → s.rxBuf = sealBody (0xC2 :: v :: k :: extra) →
      exec (.feed [0x7E]) s =
        .next { s with rxBuf := [], dropLog := s.dropLog ++ [.unknownErrorCode], results := s.results ++ [.consumed 1] })

/-- Rule R69 (the spec's decision D16): a candidate with a valid checksum and control byte 0xC3 to 0xFF is dropped, nothing is
delivered, no other register changes; the encoder never produces such a byte; bits 4:3 of an ACK or NAK are ignored. -/
def Obligations.UnassignedControlBytesAreDropped : Prop :=
  (∀ (s : State) (h : Byte) (F : Bytes), 0xC3 ≤ h.toNat → s.rxDiscarding = false → s.rxBuf = sealBody (h :: F) →
    exec (.feed [0x7E]) s =
      .next { s with rxBuf := [], dropLog := s.dropLog ++ [.unknownControl], results := s.results ++ [.consumed 1] }) ∧
  (∀ f : AshFrame, (controlByte f).toNat < 0xC3) ∧
  (∀ (n : Num3) (x : BitVec 2) (F : Bytes), classify ((4 : Num3) ++ x ++ n) F = .accept (.ack n)) ∧
  (∀ (n : Num3) (x : BitVec 2) (F : Bytes), classify ((5 : Num3) ++ x ++ n) F = .accept (.nak n)) ∧
  classify 0x88 [] = .accept (.ack 0) ∧ classify 0xB9 [] = .accept (.nak 1)

/-- The words of spec/opcode_table.json decode to the instructions they stand for: a control byte for each frame type and a code for
each operation; no reserved code and no unassigned control byte decodes. That an 8-bit word from 0x01 to 0x06 is read as an operation
code, where 0x00 and 0x07 are control bytes of DATA, and that a frame's absent bytes are completed, is the model's choice (log entry 7). -/
def Obligations.TableWordsDecode : Prop :=
  decodeTableWord 8 0x00 = some (.data 0 0 false []) ∧ decodeTableWord 8 0x5E = some (.data 5 6 true []) ∧
  decodeTableWord 8 0x83 = some (.ack 3) ∧ decodeTableWord 8 0xA6 = some (.nak 6) ∧
  decodeTableWord 8 0xC0 = some .rst ∧ decodeTableWord 8 0xC1 = some .rstack ∧
  decodeTableWord 24 0x5102C2 = some (.error 0x02 0x51) ∧
  decodeTableWord 4 0x1 = some (.sendData []) ∧ decodeTableWord 4 0x2 = some .reset ∧
  decodeTableWord 4 0x3 = some (.feed []) ∧ decodeTableWord 4 0x4 = some .pollOutgoing ∧
  decodeTableWord 4 0x5 = some .recvFrame ∧ decodeTableWord 4 0x6 = some .readStatus ∧
  decodeTableWord 8 0x01 = some (.sendData []) ∧ decodeTableWord 8 0x02 = some .reset ∧
  decodeTableWord 8 0x03 = some (.feed []) ∧ decodeTableWord 8 0x04 = some .pollOutgoing ∧
  decodeTableWord 8 0x05 = some .recvFrame ∧ decodeTableWord 8 0x06 = some .readStatus ∧
  decodeTableWord 8 0x07 = some (.data 0 7 false []) ∧
  (∀ code : OpCode, code.toNat = 0 ∨ 7 ≤ code.toNat → decodeTableWord 4 code.toNat = none) ∧
  (∀ c : Byte, 0xC3 ≤ c.toNat → decodeTableWord 8 c.toNat = none)

/-! ## The operations (42_host_operations.md) -/

/-- Rule R97: SEND_DATA, every branch with its whole next state: the three refusals in their order, each leaving every register as it
was, or the frame queued, the counter advanced mod 8 and the frame number returned; the size of an empty DATA frame; and the rule's
example of two sends after reset. The refusals are the spec's decisions D6, D11, D13. -/
def Obligations.SendDataEffect : Prop :=
  (∀ (s : State) (p : Bytes), exec (.sendData p) s = .next (
    if s.config.gateSendOnReady = true ∧ s.ready = false then { s with results := s.results ++ [.status .linkNotReady] }
    else if exceeds s.config.maxPayload p.length = true then { s with results := s.results ++ [.status .payloadTooLong] }
    else if s.config.txQueueCap = some s.txQueue.length then { s with results := s.results ++ [.status .txFull] }
    else { s with
      txQueue := s.txQueue ++ [encodeFrame (.data s.txFrameNum s.ackNum false p)]
      txFrameNum := BitVec.ofNat 3 ((s.txFrameNum.toNat + 1) % 8)
      results := s.results ++ [.sent s.txFrameNum] })) ∧
  (∀ fn an : Num3, 4 ≤ (encodeFrame (.data fn an false [])).length ∧ (encodeFrame (.data fn an false [])).length ≤ 7) ∧
  SendAll [[0x00, 0x00, 0x00, 0x00], [0x01, 0x02, 0x03, 0x04]] State.reset { State.reset with
    txFrameNum := 2, results := [.sent 0, .sent 1]
    txQueue := [[0x00, 0x42, 0x21, 0xA8, 0x54, 0xAD, 0xA8, 0x7E], [0x10, 0x43, 0x23, 0xAB, 0x50, 0xA4, 0xF1, 0x7E]] }

/-- Rules R80, R97 and R135: where no refusal applies, n sends advance the counter by n mod 8 and return the numbers in turn, so the
k-th and the (k+8)-th carry the same one. -/
def Obligations.SendsNumberFramesModEight : Prop :=
  ∀ (s : State) (ps : List Bytes), s.config.gateSendOnReady = false → s.config.maxPayload = none → s.config.txQueueCap = none →
    ∃ t, SendAll ps s t ∧ t.txFrameNum = BitVec.ofNat 3 ((s.txFrameNum.toNat + ps.length) % 8) ∧
      t.results = s.results ++ (List.range ps.length).map (fun k => .sent (BitVec.ofNat 3 ((s.txFrameNum.toNat + k) % 8))) ∧
      t.txQueue = s.txQueue ++
        ps.mapIdx (fun k p => encodeFrame (.data (BitVec.ofNat 3 ((s.txFrameNum.toNat + k) % 8)) s.ackNum false p))

/-- Rule R99: RESET, both branches with their whole next state; every register but `tx_queue` and `ready` keeps its value (the spec's
decision D5), and a refused RESET leaves `ready` too (D11). -/
def Obligations.ResetOperationEffect : Prop :=
  ∀ s : State, exec .reset s = .next (
    if s.config.txQueueCap = some s.txQueue.length then { s with results := s.results ++ [.status .txFull] }
    else { s with
      txQueue := s.txQueue ++ [[0xC0, 0x38, 0xBC, 0x7E]], ready := false, results := s.results ++ [.status .ok] })

/-- Rule R100: FEED is FeedByte for each byte in order, and answers the number of bytes (the spec's decision D9); FEED of nothing
changes no register and answers 0; the rule's example after reset. -/
def Obligations.FeedRunsEveryByteInOrder : Prop :=
  (∀ (s : State) (bs : Bytes), exec (.feed bs) s = .next ((bs.foldl feedByte s).record (.consumed bs.length))) ∧
  (∀ s : State, exec (.feed []) s = .next { s with results := s.results ++ [.consumed 0] }) ∧
  exec (.feed [0x81, 0x60, 0x59, 0x7E]) State.reset = .next { State.reset with rxFrames := [.ack 1], results := [.consumed 4] }

/-- Rule R101: the cancel byte empties `rx_buf`, ends a discard (the spec's decision D10), and changes nothing else. -/
def Obligations.CancelByteEffect : Prop :=
  ∀ s : State, exec (.feed [0x1A]) s =
    .next { s with
      rxBuf := [], rxDiscarding := false, dropLog := s.dropLog ++ [.cancelled], results := s.results ++ [.consumed 1] }

/-- Rule R102: the flag byte takes the candidate out of `rx_buf`, without itself; a discarded candidate is OVERRUN, a candidate that
does not decode is dropped with its reason and changes nothing more, and one that decodes is accepted. -/
def Obligations.FlagByteEffect : Prop :=
  ∀ s : State, exec (.feed [0x7E]) s = .next (
    if s.rxDiscarding = true then
      { s with rxBuf := [], rxDiscarding := false, dropLog := s.dropLog ++ [.overrun], results := s.results ++ [.consumed 1] }
    else
      match decodeByR88 s.config s.rxBuf with
      | .drop r => { s with rxBuf := [], dropLog := s.dropLog ++ [r], results := s.results ++ [.consumed 1] }
      | .accept f => (acceptFrame f { s with rxBuf := [] }).record (.consumed 1))

/-- Rule R103: any other byte is discarded, overruns the buffer, or joins it (the overrun is the spec's decision D10). -/
def Obligations.OtherByteEffect : Prop :=
  ∀ (s : State) (b : Byte), b ≠ 0x7E → b ≠ 0x1A → exec (.feed [b]) s = .next (
    if s.rxDiscarding = true then { s with results := s.results ++ [.consumed 1] }
    else if s.config.rxBufCap = some s.rxBuf.length then
      { s with rxBuf := [], rxDiscarding := true, results := s.results ++ [.consumed 1] }
    else { s with rxBuf := s.rxBuf ++ [b], results := s.results ++ [.consumed 1] })

/-- Rules R104, R105 and R106: what the framer does with an accepted frame, by type, in the FEED of the flag that ends it, with the
whole next state: DATA writes `ack_num`, queues the ACK that carries it, and is delivered; ResetAck sets `ready` and is delivered; every
other type is delivered only; an ACK or a delivery whose queue is full is lost alone. The losses are the spec's decisions D11 and D12,
that the other types change no register D21 and D22. -/
def Obligations.AcceptedFrameEffects : Prop :=
  ∀ (s : State) (f : AshFrame), s.rxDiscarding = false → decodeByR88 s.config s.rxBuf = .accept f →
    let lostAck : Bool := decide (s.config.txQueueCap = some s.txQueue.length)
    let lostFrame : Bool := decide (s.config.rxFrameCap = some s.rxFrames.length)
    let taken : State := { s with
      rxBuf := [], rxFrames := s.rxFrames ++ (if lostFrame then [] else [f])
      dropLog := s.dropLog ++ (if lostFrame then [.rxOverflow] else []), results := s.results ++ [.consumed 1] }
    exec (.feed [0x7E]) s = .next (
      match f with
      | .data fn _ _ _ =>
        let an : Num3 := BitVec.ofNat 3 ((fn.toNat + 1) % 8)
        { taken with
          ackNum := an, txQueue := s.txQueue ++ (if lostAck then [] else [encodeFrame (.ack an)])
          dropLog := s.dropLog ++ (if lostAck then [.ackLost] else []) ++ (if lostFrame then [.rxOverflow] else []) }
      | .resetAck => { taken with ready := true }
      | .ack _ => taken
      | .nak _ => taken
      | .reset => taken
      | .error _ _ => taken)

/-- Rules R88 and R104 to R106 as the meaning of the six frame instructions: what each frame type does when it is received, with its
whole next state. A DATA frame within `MAX_PAYLOAD` writes `ack_num`, queues its ACK and is delivered, each of the last two lost alone where its queue is full; ResetAck sets
`ready`; every other type is delivered only. The losses are the spec's decisions D11 and D12, the acceptance of every DATA frame D20,
that ACK, NAK, Reset and Error change no register D21 and D22. That the two configuration checks of rule R88 stand in the frame's
meaning is the model's reading (log entry 6). -/
def Obligations.ReceivedFrameEffects : Prop :=
  (∀ (s : State) (fn an : Num3) (re : Bool) (p : Bytes), exec (.data fn an re p) s = .next (
    if exceeds s.config.maxPayload p.length = true then { s with dropLog := s.dropLog ++ [.tooLong] }
    else { s with
      ackNum := BitVec.ofNat 3 ((fn.toNat + 1) % 8)
      txQueue := s.txQueue ++ (if s.config.txQueueCap = some s.txQueue.length then []
        else [encodeFrame (.ack (BitVec.ofNat 3 ((fn.toNat + 1) % 8)))])
      rxFrames := s.rxFrames ++ (if s.config.rxFrameCap = some s.rxFrames.length then [] else [.data fn an re p])
      dropLog := s.dropLog ++ (if s.config.txQueueCap = some s.txQueue.length then [.ackLost] else [])
        ++ (if s.config.rxFrameCap = some s.rxFrames.length then [.rxOverflow] else []) })) ∧
  (∀ s : State, exec .rstack s = .next (
    if s.config.rxFrameCap = some s.rxFrames.length then { s with ready := true, dropLog := s.dropLog ++ [.rxOverflow] }
    else { s with ready := true, rxFrames := s.rxFrames ++ [.resetAck] })) ∧
  (∀ (s : State) (n : Num3), exec (.ack n) s = .next (
    if s.config.rxFrameCap = some s.rxFrames.length then { s with dropLog := s.dropLog ++ [.rxOverflow] }
    else { s with rxFrames := s.rxFrames ++ [.ack n] })) ∧
  (∀ (s : State) (n : Num3), exec (.nak n) s = .next (
    if s.config.rxFrameCap = some s.rxFrames.length then { s with dropLog := s.dropLog ++ [.rxOverflow] }
    else { s with rxFrames := s.rxFrames ++ [.nak n] })) ∧
  (∀ s : State, exec .rst s = .next (
    if s.config.rxFrameCap = some s.rxFrames.length then { s with dropLog := s.dropLog ++ [.rxOverflow] }
    else { s with rxFrames := s.rxFrames ++ [.reset] })) ∧
  (∀ (s : State) (v k : Byte), exec (.error v k) s = .next (
    if k ∉ s.config.errorCodes then { s with dropLog := s.dropLog ++ [.unknownErrorCode] }
    else if s.config.rxFrameCap = some s.rxFrames.length then { s with dropLog := s.dropLog ++ [.rxOverflow] }
    else { s with rxFrames := s.rxFrames ++ [.error v k] }))

/-- Rule R107: POLL_OUTGOING returns and removes the oldest encoded frame, or returns None and changes no register. -/
def Obligations.PollOutgoingEffect : Prop :=
  (∀ s : State, s.txQueue = [] → exec .pollOutgoing s = .next { s with results := s.results ++ [.polled none] }) ∧
  (∀ (s : State) (w : Bytes) (rest : List Bytes), s.txQueue = w :: rest →
    exec .pollOutgoing s = .next { s with txQueue := rest, results := s.results ++ [.polled (some w)] })

/-- Rule R108: RECV_FRAME returns and removes the oldest accepted frame, of whatever type, or returns None and changes no register. -/
def Obligations.RecvFrameEffect : Prop :=
  (∀ s : State, s.rxFrames = [] → exec .recvFrame s = .next { s with results := s.results ++ [.received none] }) ∧
  (∀ (s : State) (f : AshFrame) (rest : List AshFrame), s.rxFrames = f :: rest →
    exec .recvFrame s = .next { s with rxFrames := rest, results := s.results ++ [.received (some f)] })

/-- Rule R109: READ_STATUS returns `STATUS`, whose number is READY at bit 7, TX_FN at 6:4, RX_DISC at 3 and ACK_NUM at 2:0, with the three
counts, and writes no register (the layout is the spec's decision D25). -/
def Obligations.ReadStatusEffect : Prop :=
  (∀ s : State, exec .readStatus s =
    .next { s with results := s.results ++ [.statusRead (statusByte s) s.txQueue.length s.rxFrames.length s.rxBuf.length] }) ∧
  (∀ s : State, (statusByte s).toNat =
    (if s.ready then 128 else 0) + s.txFrameNum.toNat * 16 + (if s.rxDiscarding then 8 else 0) + s.ackNum.toNat)

/-- The frame of FEED (rules R100 to R106): it never writes `tx_frame_num`, never clears `ready`, only appends to the two queues, and
what it appends to `tx_queue` are ACK frames. -/
def Obligations.FeedFrame : Prop :=
  ∀ (s t : State) (bs : Bytes), exec (.feed bs) s = .next t →
    t.txFrameNum = s.txFrameNum ∧ t.config = s.config ∧ t.pending = s.pending ∧
    t.results = s.results ++ [.consumed bs.length] ∧ (s.ready = true → t.ready = true) ∧
    (∃ acks : List Num3, t.txQueue = s.txQueue ++ acks.map (fun n => encodeFrame (.ack n))) ∧
    (∃ fs : List AshFrame, t.rxFrames = s.rxFrames ++ fs)

/-- Rule R110, which the spec marks as derived: one FEED of two strings reaches the state that two FEEDs reach; only the returned
counts differ. -/
def Obligations.FeedChunking : Prop :=
  ∀ (s : State) (xs ys : Bytes), ∃ u v t,
    exec (.feed xs) s = .next u ∧ exec (.feed ys) u = .next v ∧ exec (.feed (xs ++ ys)) s = .next t ∧
    t = { v with results := s.results ++ [.consumed (xs.length + ys.length)] } ∧
    v.results = s.results ++ [.consumed xs.length, .consumed ys.length]

/-- The source's reading of `feed`, which rule R100 says agrees with its pseudocode: with an unbounded buffer (the default), feeding
byte by byte does what appending the whole input and then scanning for terminators does. -/
def Obligations.FeedAgreesWithBufferScan : Prop :=
  ∀ (s : State) (bs : Bytes), s.config.rxBufCap = none → s.rxDiscarding = false → (∀ b ∈ s.rxBuf, isTerminator b = false) →
    exec (.feed bs) s = .next ((scanBuffer bs.length { s with rxBuf := s.rxBuf ++ bs }).record (.consumed bs.length))

/-- Rule R103's overrun: with a finite `RX_BUF_CAP`, a candidate longer than it is discarded whole, its terminating flag included, so
no tail of it is taken for a frame. -/
def Obligations.OverlongCandidateIsDiscardedWhole : Prop :=
  ∀ (s : State) (raw : Bytes) (cap : Nat), s.config.rxBufCap = some cap → s.rxDiscarding = false → s.rxBuf = [] →
    (∀ b ∈ raw, isTerminator b = false) → cap < raw.length →
    exec (.feed (raw ++ [0x7E])) s =
      .next { s with dropLog := s.dropLog ++ [.overrun], results := s.results ++ [.consumed (raw.length + 1)] }

/-- Rule R133, which the spec marks as derived, with rules R94 and R101 to R103: whatever noise the receiver holds, a leading cancel or
flag byte gives a clean start, and the frame that follows it is received whole. A cancel discards what was held; a flag ends it as a
candidate, which on an empty buffer is a TOO_SHORT drop and nothing else. The reception is that of the frame as an instruction (log
entry 6). -/
def Obligations.CancelResynchronises : Prop :=
  (∀ (s : State) (f : AshFrame), (∀ cap, s.config.rxBufCap = some cap → (encodeFrame f).length ≤ cap + 1) →
    ∃ t, exec f.toInstr { s with rxBuf := [], rxDiscarding := false, dropLog := s.dropLog ++ [.cancelled] } = .next t ∧
      exec (.feed (0x1A :: encodeFrame f)) s =
        .next { t with results := s.results ++ [.consumed ((encodeFrame f).length + 1)] }) ∧
  (∀ (s : State) (f : AshFrame), (∀ cap, s.config.rxBufCap = some cap → (encodeFrame f).length ≤ cap + 1) →
    ∃ u t, exec (.feed [0x7E]) s = .next { u with results := s.results ++ [.consumed 1] } ∧
      u.results = s.results ∧ u.rxBuf = [] ∧ u.rxDiscarding = false ∧ exec f.toInstr u = .next t ∧
      exec (.feed (0x7E :: encodeFrame f)) s =
        .next { t with results := s.results ++ [.consumed ((encodeFrame f).length + 1)] }) ∧
  (∀ s : State, s.rxBuf = [] → s.rxDiscarding = false →
    exec (.feed [0x7E]) s = .next { s with dropLog := s.dropLog ++ [.tooShort], results := s.results ++ [.consumed 1] })

/-- Rule R46, which the spec marks as derived: a SEND_DATA after the reception of a DATA frame carries the new ack number, and its frame
is queued behind the automatic ACK, wherever neither is refused nor lost. First over a FEED whose flag ends the frame, then over the
frame as an instruction (log entry 6). -/
def Obligations.SendAfterDataCarriesNewAck : Prop :=
  ∀ (s : State) (fn an : Num3) (re : Bool) (p q : Bytes),
    (s.config.gateSendOnReady = false ∨ s.ready = true) →
    s.config.txQueueCap ≠ some s.txQueue.length → s.config.txQueueCap ≠ some (s.txQueue.length + 1) →
    exceeds s.config.maxPayload q.length = false →
    let queued := s.txQueue ++ [encodeFrame (.ack (fn + 1)), encodeFrame (.data s.txFrameNum (fn + 1) false q)]
    (s.rxDiscarding = false → decodeCandidate s.config s.rxBuf = .accept (.data fn an re p) →
      ∃ t u, exec (.feed [0x7E]) s = .next t ∧ exec (.sendData q) t = .next u ∧ u.txQueue = queued) ∧
    (exceeds s.config.maxPayload p.length = false →
      ∃ t u, exec (.data fn an re p) s = .next t ∧ exec (.sendData q) t = .next u ∧ u.txQueue = queued)

/-! ## The machine -/

/-- A step runs the decoded operation: the oldest pending call, if its code selects an operation, is run whole on the state that call
has left (rules R40, R96; that calls wait in `pending` is the model's choice, log entry 1). -/
def Obligations.StepRunsDecodedOperation : Prop :=
  ∀ (s : State) (code : OpCode) (operand : Bytes) (rest : List Request) (i : Instr),
    s.pending = .call code operand :: rest → decodeOperation code operand = .ok i →
    step s = exec i { s with pending := rest }

/-- A step runs the decoded frame: a FEED call whose bytes complete one candidate, together with what `rx_buf` holds, runs the frame
instruction the candidate decodes to, on the state with that candidate taken out, and returns the count (rules R88, R102, R104; log
entries 1 and 6). -/
def Obligations.StepRunsDecodedFrame : Prop :=
  ∀ (s : State) (bs : Bytes) (rest : List Request) (f : AshFrame),
    s.pending = .call 0x3 (bs ++ [0x7E]) :: rest → s.rxDiscarding = false → (∀ b ∈ bs, isTerminator b = false) →
    (∀ cap, s.config.rxBufCap = some cap → s.rxBuf.length + bs.length ≤ cap) →
    decodeWire (s.rxBuf ++ bs ++ [0x7E]) = .ok f.toInstr →
    ∃ t, exec f.toInstr { s with pending := rest, rxBuf := [] } = .next t ∧
      step s = .next { t with results := s.results ++ [.consumed (bs.length + 1)] }

/-- Rule R71: which operation each code selects, and that a call with a reserved code is refused; nothing else ever is (rules R96,
R114). The codes are the spec's decision D28. -/
def Obligations.OperationCodesAndReservedRefusal : Prop :=
  (∀ bs : Bytes, decodeOperation 0x1 bs = .ok (.sendData bs) ∧ decodeOperation 0x3 bs = .ok (.feed bs)) ∧
  (decodeOperation 0x2 [] = .ok .reset ∧ decodeOperation 0x4 [] = .ok .pollOutgoing ∧
    decodeOperation 0x5 [] = .ok .recvFrame ∧ decodeOperation 0x6 [] = .ok .readStatus) ∧
  (∀ bs, (Instr.sendData bs).port = .host ∧ (Instr.feed bs).port = .line) ∧
  (Instr.reset.port = .host ∧ Instr.pollOutgoing.port = .line ∧ Instr.recvFrame.port = .host ∧ Instr.readStatus.port = .host) ∧
  (∀ (s : State) (r : Refusal), step s = .refused r ↔
    ∃ code operand rest, s.pending = .call code operand :: rest ∧ (code.toNat = 0 ∨ 7 ≤ code.toNat) ∧
      r = .reservedOperation code)

/-- Rules R48 and R112: no operation waits, faults or is fatal; every instruction completes in one step, from every state. That a frame
is an instruction too is the model's reading (log entry 6). -/
def Obligations.EveryInstructionCompletes : Prop := ∀ (i : Instr) (s : State), ∃ t, exec i s = .next t

/-- With no call pending a step changes nothing: the framer acts only inside calls (rule R123). That the model then answers a next
state is its choice (log entry 10). -/
def Obligations.IdleStepChangesNothing : Prop := ∀ s : State, s.pending = [] → step s = .next s

/-- Rule R34: what reset leaves, under every configuration; and that the machine after reset is that under rule R8's defaults: no gate,
no limit, and the OPEN set of error codes left free. The values of `ack_num`, `ready` and the queues are the spec's decisions D3 and D4.
That State carries the parameters, and that the set is a constant with no body, is the model's choice (log entries 4 and 5). -/
def Obligations.ResetValues : Prop :=
  (∀ c : Config, let s := State.resetWith c
    s.config = c ∧
      s.txFrameNum = 0 ∧ s.ackNum = 0 ∧ s.ready = false ∧ s.rxDiscarding = false ∧ s.rxBuf = [] ∧ s.txQueue = [] ∧ s.rxFrames = [] ∧
      statusByte s = 0x00) ∧
  State.reset = State.resetWith Config.default ∧
  State.reset.config =
    { gateSendOnReady := false, rxBufCap := none, txQueueCap := none, rxFrameCap := none, maxPayload := none,
      errorCodes := openErrorCodes }

/-- Rule R127 as an event: a step that takes a hardware reset sets every register to its reset value, and keeps what is no register.
That it waits in `pending` like a call is the model's choice (log entry 11). -/
def Obligations.HardwareResetStep : Prop :=
  ∀ (s : State) (rest : List Request), s.pending = .hardwareReset :: rest →
    step s = .next { State.resetWith s.config with pending := rest, results := s.results, dropLog := s.dropLog }

/-- Rules R20, R24, R25, R26 and R27: every step keeps the invariant: no terminator in `rx_buf`, each queue within its capacity, nothing
buffered while discarding, discarding only with a finite capacity, every queued frame one the framer may send and encoded, every
delivered frame within the limits. Rule R24 is marked derived. -/
def Obligations.StepKeepsInvariant : Prop := ∀ s t : State, s.Inv → step s = .next t → t.Inv

/-- The machine after reset meets the invariant, under every configuration. -/
def Obligations.ResetMeetsInvariant : Prop := ∀ c : Config, (State.resetWith c).Inv

/-- Rules R30 and R35: no step writes the configuration. That State carries it is the model's choice (log entry 4). -/
def Obligations.ConfigurationIsNeverWritten : Prop := ∀ s t : State, step s = .next t → t.config = s.config

/-- Rule R17: SEND_DATA assigns `tx_frame_num` and advances it mod 8; no other operation and no received frame writes it; hardware
reset zeroes it. -/
def Obligations.FrameCounterWrittenOnlyBySendData : Prop :=
  (∀ (i : Instr) (s t : State), exec i s = .next t → t.txFrameNum ≠ s.txFrameNum →
    ∃ p, i = .sendData p ∧ t.txFrameNum = BitVec.ofNat 3 ((s.txFrameNum.toNat + 1) % 8) ∧
      t.results = s.results ++ [.sent s.txFrameNum] ∧
      t.txQueue = s.txQueue ++ [encodeFrame (.data s.txFrameNum s.ackNum false p)]) ∧
  (∀ s : State, (hardwareReset s).txFrameNum = 0)

/-- Rule R18: `ack_num` is written only when a DATA frame is accepted, with its frame number plus one mod 8 (that the other types do not
write it is the spec's decision D21, D22): by a fed byte only if it is the flag that ends, while nothing is discarded, a candidate in
`rx_buf` that decodes to that frame; so by a FEED only if one of its flags does so; and by a frame instruction (log entry 6) only if it is
that DATA frame. -/
def Obligations.AckNumWrittenOnlyByAcceptedData : Prop :=
  (∀ (s : State) (b : Byte), (feedByte s b).ackNum ≠ s.ackNum →
    b = 0x7E ∧ s.rxDiscarding = false ∧ ∃ fn an re p, decodeCandidate s.config s.rxBuf = .accept (.data fn an re p) ∧
      (feedByte s b).ackNum = BitVec.ofNat 3 ((fn.toNat + 1) % 8)) ∧
  (∀ (i : Instr) (s t : State), exec i s = .next t → t.ackNum ≠ s.ackNum →
    ∃ fn an re p, t.ackNum = BitVec.ofNat 3 ((fn.toNat + 1) % 8) ∧
      (i = .data fn an re p ∨ ∃ bs, i = .feed bs ∧ AcceptedWhileFeeding s bs (.data fn an re p)))

/-- Rule R19: RESET clears `ready`, an accepted ResetAck sets it, no other event writes it, and hardware reset clears it. A fed byte
writes it only if it is the flag that ends, while nothing is discarded, a candidate in `rx_buf` that decodes to a ResetAck; so a FEED
only if one of its flags does so; a frame instruction (log entry 6) only if it is the ResetAck. -/
def Obligations.ReadyWrittenOnlyByResetAndResetAck : Prop :=
  (∀ (s : State) (b : Byte), (feedByte s b).ready ≠ s.ready →
    b = 0x7E ∧ s.rxDiscarding = false ∧ decodeCandidate s.config s.rxBuf = .accept .resetAck ∧ (feedByte s b).ready = true) ∧
  (∀ (i : Instr) (s t : State), exec i s = .next t → t.ready ≠ s.ready →
    (i = .reset ∧ t.ready = false) ∨
    (t.ready = true ∧ (i = .rstack ∨ ∃ bs, i = .feed bs ∧ AcceptedWhileFeeding s bs .resetAck))) ∧
  (∀ s : State, (hardwareReset s).ready = false)

/-- Rules R44 and R45, which the spec marks as derived: both queues are first in, first out: whatever runs, `tx_queue` loses its head to
POLL_OUTGOING, which returns it, or grows at its tail, and `rx_frames` so with RECV_FRAME. -/
def Obligations.QueuesAreFifo : Prop :=
  ∀ (i : Instr) (s t : State), exec i s = .next t →
    ((∃ new, t.txQueue = s.txQueue ++ new) ∨
      (i = .pollOutgoing ∧ ∃ w, s.txQueue = w :: t.txQueue ∧ t.results = s.results ++ [.polled (some w)])) ∧
    ((∃ new, t.rxFrames = s.rxFrames ++ new) ∨
      (i = .recvFrame ∧ ∃ f, s.rxFrames = f :: t.rxFrames ∧ t.results = s.results ++ [.received (some f)]))

/-- Rule R32: no operation reads the ghost drop log; nor does any read the results already returned. Two runs that differ only there
stay equal everywhere else and add the same entries. The two fields are the model's own (log entries 2 and 3). -/
def Obligations.GhostLogAndResultsAreNeverRead : Prop :=
  ∀ (i : Instr) (s t : State), exec i s = .next t →
    ∃ (drops : List DropReason) (outs : List Result), t.dropLog = s.dropLog ++ drops ∧ t.results = s.results ++ outs ∧
      ∀ (log : List DropReason) (rs : List Result),
        exec i { s with dropLog := log, results := rs } = .next { t with dropLog := log ++ drops, results := rs ++ outs }

/-- Rule R129: link bring-up from hardware reset: RESET, POLL_OUTGOING and a FEED of the peer's ResetAck make the link ready, under
every configuration that has room for one outgoing frame and one three-byte candidate. That the calls wait in `pending` is the model's
choice (log entry 1). -/
def Obligations.BringUpMakesLinkReady : Prop :=
  ∀ c : Config, c.txQueueCap ≠ some 0 → (∀ cap, c.rxBufCap = some cap → 3 ≤ cap) →
    ∃ t, Steps 3 { State.resetWith c with
        pending := [.call 0x2 [], .call 0x4 [], .call 0x3 [0xC1, 0x28, 0x9D, 0x7E]] } t ∧
      t.ready = true ∧ t.txQueue = [] ∧
      t.results = [.status .ok, .polled (some [0xC0, 0x38, 0xBC, 0x7E]), .consumed 4]
end

