-- ==== Sys2Proof/Laws/Codec.lean ====
section
/-! SUPPORT. Small lemmas of the codec primitives and the frame codec: each definition is unfolded here and not again. -/

namespace Sys2Proof

@[simp] theorem atCap_none (n : Nat) : atCap none n = false := rfl
@[simp] theorem atCap_some (c n : Nat) : atCap (some c) n = (n == c) := rfl
@[simp] theorem overMax_none (n : Nat) : overMax none n = false := rfl
@[simp] theorem overMax_some (m n : Nat) : overMax (some m) n = decide (m < n) := rfl

@[simp] theorem crc16_nil : crc16 [] = 0xFFFF := rfl
@[simp] theorem crcBytes_length (c : U16) : (crcBytes c).length = 2 := rfl

/-- The checksum of a longer string runs on from that of its beginning. -/
theorem crc16_append (xs ys : Bytes) : crc16 (xs ++ ys) = ys.foldl crcStep (crc16 xs) := by
  simp [crc16, List.foldl_append]

@[simp] theorem stuff_nil : stuff [] = [] := rfl

theorem stuff_cons_reserved {b : Byte} (h : isReserved b = true) (bs : Bytes) :
    stuff (b :: bs) = escapeByte :: (b ^^^ 0x20) :: stuff bs := by
  simp [stuff, h]

theorem stuff_cons_plain {b : Byte} (h : isReserved b = false) (bs : Bytes) : stuff (b :: bs) = b :: stuff bs := by
  simp [stuff, h]

theorem stuff_append (xs ys : Bytes) : stuff (xs ++ ys) = stuff xs ++ stuff ys := by
  induction xs with
  | nil => rfl
  | cons b bs ih => cases h : isReserved b <;> simp [stuff, h, ih]

@[simp] theorem unstuff_nil : unstuff [] = some [] := rfl

theorem unstuff_escape (c : Byte) (cs : Bytes) :
    unstuff (escapeByte :: c :: cs) = (unstuff cs).map ((c ^^^ 0x20) :: ·) := by
  rw [unstuff.eq_def]
  simp

theorem unstuff_plain {b : Byte} (h : b ≠ escapeByte) (bs : Bytes) : unstuff (b :: bs) = (unstuff bs).map (b :: ·) := by
  rw [unstuff.eq_def]
  simp [h]

/-- The escape byte is reserved, so a byte that is not reserved is not the escape byte. -/
theorem ne_escape_of_plain {b : Byte} (h : isReserved b = false) : b ≠ escapeByte := by
  rintro rfl
  exact absurd h (by decide)

/-- A byte that is not reserved is no terminator. -/
theorem not_terminator_of_plain {b : Byte} (h : isReserved b = false) : isTerminator b = false := by
  revert b
  decide

/-- The second byte of an escape is no terminator (rule R75). -/
theorem not_terminator_of_escaped {b : Byte} (h : isReserved b = true) : isTerminator (b ^^^ 0x20) = false := by
  revert b
  decide

@[simp] theorem maskFrom_length (m : Byte) (p : Bytes) : (maskFrom m p).length = p.length := by
  induction p generalizing m with
  | nil => rfl
  | cons b bs ih => simp [maskFrom, ih]

@[simp] theorem maskPayload_length (p : Bytes) : (maskPayload p).length = p.length := maskFrom_length _ p

/-- The generator run twice from one value undoes itself. -/
theorem maskFrom_maskFrom (m : Byte) (p : Bytes) : maskFrom m (maskFrom m p) = p := by
  induction p generalizing m with
  | nil => rfl
  | cons b bs ih => simp [maskFrom, ih]

@[simp] theorem toFrame?_toInstr (f : AshFrame) : f.toInstr.toFrame? = some f := by cases f <;> rfl

@[simp] theorem body_length (f : AshFrame) : (body f).length = (fieldBytes f).length + 1 := by simp [body]

/-- The flag is the last byte of an encoded frame and nothing else of it is after the candidate. -/
@[simp] theorem encodeFrame_dropLast (f : AshFrame) : (encodeFrame f).dropLast = sealBody (body f) := by
  simp [encodeFrame]

@[simp] theorem encodeFrame_getLast? (f : AshFrame) : (encodeFrame f).getLast? = some flagByte := by
  simp [encodeFrame]

theorem encode_toInstr (f : AshFrame) : encode f.toInstr = .frame (encodeFrame f) := by cases f <;> rfl

/-- What `decodeCandidate` can answer: a drop of the parse, a drop of the configuration check, or the parsed frame. -/
theorem decodeCandidate_cases (c : Config) (raw : Bytes) :
    (∃ r, parseCandidate raw = .drop r ∧ decodeCandidate c raw = .drop r) ∨
    (∃ f r, parseCandidate raw = .accept f ∧ limitCheck c f = some r ∧ decodeCandidate c raw = .drop r) ∨
    (∃ f, parseCandidate raw = .accept f ∧ limitCheck c f = none ∧ decodeCandidate c raw = .accept f) := by
  unfold decodeCandidate
  cases hp : parseCandidate raw with
  | drop r => exact .inl ⟨r, rfl, rfl⟩
  | accept f =>
    cases hl : limitCheck c f with
    | some r => exact .inr (.inl ⟨f, r, rfl, hl, by simp [hl]⟩)
    | none => exact .inr (.inr ⟨f, rfl, hl, by simp [hl]⟩)

/-- An accepted candidate passed the configuration checks. -/
theorem limitCheck_of_accept {c : Config} {raw : Bytes} {f : AshFrame} (h : decodeCandidate c raw = .accept f) :
    limitCheck c f = none := by
  obtain ⟨r, -, h'⟩ | ⟨g, r, -, -, h'⟩ | ⟨g, -, hl, h'⟩ := decodeCandidate_cases c raw
  · simp [h'] at h
  · simp [h'] at h
  · rw [h'] at h
    cases h
    exact hl

/-- What an operation code selects, or that it is reserved. -/
theorem decodeOperation_cases (code : OpCode) (operand : Bytes) :
    (∃ i, decodeOperation code operand = .ok i ∧ i.toFrame? = none) ∨
      decodeOperation code operand = .rejected (.reservedOperation code) := by
  unfold decodeOperation
  repeat' split
  all_goals first | exact .inl ⟨_, rfl, rfl⟩ | exact .inr rfl

end Sys2Proof
end

