-- ==== Sys2Proof/Laws/State.lean ====
section
/-! SUPPORT. One lemma per field per update of State, true by rfl. -/

namespace Sys2Proof.Machine

open Sys2Proof

variable (s : State)

/-! `State.record` -/

@[simp] theorem State.record_txFrameNum (r : Result) : (s.record r).txFrameNum = s.txFrameNum := rfl
@[simp] theorem State.record_ackNum (r : Result) : (s.record r).ackNum = s.ackNum := rfl
@[simp] theorem State.record_ready (r : Result) : (s.record r).ready = s.ready := rfl
@[simp] theorem State.record_rxDiscarding (r : Result) : (s.record r).rxDiscarding = s.rxDiscarding := rfl
@[simp] theorem State.record_rxBuf (r : Result) : (s.record r).rxBuf = s.rxBuf := rfl
@[simp] theorem State.record_txQueue (r : Result) : (s.record r).txQueue = s.txQueue := rfl
@[simp] theorem State.record_rxFrames (r : Result) : (s.record r).rxFrames = s.rxFrames := rfl
@[simp] theorem State.record_config (r : Result) : (s.record r).config = s.config := rfl
@[simp] theorem State.record_pending (r : Result) : (s.record r).pending = s.pending := rfl
@[simp] theorem State.record_results (r : Result) : (s.record r).results = s.results ++ [r] := rfl
@[simp] theorem State.record_dropLog (r : Result) : (s.record r).dropLog = s.dropLog := rfl

/-! `State.drop` -/

@[simp] theorem State.drop_txFrameNum (r : DropReason) : (s.drop r).txFrameNum = s.txFrameNum := rfl
@[simp] theorem State.drop_ackNum (r : DropReason) : (s.drop r).ackNum = s.ackNum := rfl
@[simp] theorem State.drop_ready (r : DropReason) : (s.drop r).ready = s.ready := rfl
@[simp] theorem State.drop_rxDiscarding (r : DropReason) : (s.drop r).rxDiscarding = s.rxDiscarding := rfl
@[simp] theorem State.drop_rxBuf (r : DropReason) : (s.drop r).rxBuf = s.rxBuf := rfl
@[simp] theorem State.drop_txQueue (r : DropReason) : (s.drop r).txQueue = s.txQueue := rfl
@[simp] theorem State.drop_rxFrames (r : DropReason) : (s.drop r).rxFrames = s.rxFrames := rfl
@[simp] theorem State.drop_config (r : DropReason) : (s.drop r).config = s.config := rfl
@[simp] theorem State.drop_pending (r : DropReason) : (s.drop r).pending = s.pending := rfl
@[simp] theorem State.drop_results (r : DropReason) : (s.drop r).results = s.results := rfl
@[simp] theorem State.drop_dropLog (r : DropReason) : (s.drop r).dropLog = s.dropLog ++ [r] := rfl

/-! `State.txPush` -/

@[simp] theorem State.txPush_txFrameNum (bs : Bytes) : (s.txPush bs).txFrameNum = s.txFrameNum := rfl
@[simp] theorem State.txPush_ackNum (bs : Bytes) : (s.txPush bs).ackNum = s.ackNum := rfl
@[simp] theorem State.txPush_ready (bs : Bytes) : (s.txPush bs).ready = s.ready := rfl
@[simp] theorem State.txPush_rxDiscarding (bs : Bytes) : (s.txPush bs).rxDiscarding = s.rxDiscarding := rfl
@[simp] theorem State.txPush_rxBuf (bs : Bytes) : (s.txPush bs).rxBuf = s.rxBuf := rfl
@[simp] theorem State.txPush_txQueue (bs : Bytes) : (s.txPush bs).txQueue = s.txQueue ++ [bs] := rfl
@[simp] theorem State.txPush_rxFrames (bs : Bytes) : (s.txPush bs).rxFrames = s.rxFrames := rfl
@[simp] theorem State.txPush_config (bs : Bytes) : (s.txPush bs).config = s.config := rfl
@[simp] theorem State.txPush_pending (bs : Bytes) : (s.txPush bs).pending = s.pending := rfl
@[simp] theorem State.txPush_results (bs : Bytes) : (s.txPush bs).results = s.results := rfl
@[simp] theorem State.txPush_dropLog (bs : Bytes) : (s.txPush bs).dropLog = s.dropLog := rfl

/-! `State.rxFramePush` -/

@[simp] theorem State.rxFramePush_txFrameNum (f : AshFrame) : (s.rxFramePush f).txFrameNum = s.txFrameNum := rfl
@[simp] theorem State.rxFramePush_ackNum (f : AshFrame) : (s.rxFramePush f).ackNum = s.ackNum := rfl
@[simp] theorem State.rxFramePush_ready (f : AshFrame) : (s.rxFramePush f).ready = s.ready := rfl
@[simp] theorem State.rxFramePush_rxDiscarding (f : AshFrame) : (s.rxFramePush f).rxDiscarding = s.rxDiscarding := rfl
@[simp] theorem State.rxFramePush_rxBuf (f : AshFrame) : (s.rxFramePush f).rxBuf = s.rxBuf := rfl
@[simp] theorem State.rxFramePush_txQueue (f : AshFrame) : (s.rxFramePush f).txQueue = s.txQueue := rfl
@[simp] theorem State.rxFramePush_rxFrames (f : AshFrame) : (s.rxFramePush f).rxFrames = s.rxFrames ++ [f] := rfl
@[simp] theorem State.rxFramePush_config (f : AshFrame) : (s.rxFramePush f).config = s.config := rfl
@[simp] theorem State.rxFramePush_pending (f : AshFrame) : (s.rxFramePush f).pending = s.pending := rfl
@[simp] theorem State.rxFramePush_results (f : AshFrame) : (s.rxFramePush f).results = s.results := rfl
@[simp] theorem State.rxFramePush_dropLog (f : AshFrame) : (s.rxFramePush f).dropLog = s.dropLog := rfl

/-! `State.setAckNum` -/

@[simp] theorem State.setAckNum_txFrameNum (n : Num3) : (s.setAckNum n).txFrameNum = s.txFrameNum := rfl
@[simp] theorem State.setAckNum_ackNum (n : Num3) : (s.setAckNum n).ackNum = n := rfl
@[simp] theorem State.setAckNum_ready (n : Num3) : (s.setAckNum n).ready = s.ready := rfl
@[simp] theorem State.setAckNum_rxDiscarding (n : Num3) : (s.setAckNum n).rxDiscarding = s.rxDiscarding := rfl
@[simp] theorem State.setAckNum_rxBuf (n : Num3) : (s.setAckNum n).rxBuf = s.rxBuf := rfl
@[simp] theorem State.setAckNum_txQueue (n : Num3) : (s.setAckNum n).txQueue = s.txQueue := rfl
@[simp] theorem State.setAckNum_rxFrames (n : Num3) : (s.setAckNum n).rxFrames = s.rxFrames := rfl
@[simp] theorem State.setAckNum_config (n : Num3) : (s.setAckNum n).config = s.config := rfl
@[simp] theorem State.setAckNum_pending (n : Num3) : (s.setAckNum n).pending = s.pending := rfl
@[simp] theorem State.setAckNum_results (n : Num3) : (s.setAckNum n).results = s.results := rfl
@[simp] theorem State.setAckNum_dropLog (n : Num3) : (s.setAckNum n).dropLog = s.dropLog := rfl

/-! `State.setReady` -/

@[simp] theorem State.setReady_txFrameNum (b : Bool) : (s.setReady b).txFrameNum = s.txFrameNum := rfl
@[simp] theorem State.setReady_ackNum (b : Bool) : (s.setReady b).ackNum = s.ackNum := rfl
@[simp] theorem State.setReady_ready (b : Bool) : (s.setReady b).ready = b := rfl
@[simp] theorem State.setReady_rxDiscarding (b : Bool) : (s.setReady b).rxDiscarding = s.rxDiscarding := rfl
@[simp] theorem State.setReady_rxBuf (b : Bool) : (s.setReady b).rxBuf = s.rxBuf := rfl
@[simp] theorem State.setReady_txQueue (b : Bool) : (s.setReady b).txQueue = s.txQueue := rfl
@[simp] theorem State.setReady_rxFrames (b : Bool) : (s.setReady b).rxFrames = s.rxFrames := rfl
@[simp] theorem State.setReady_config (b : Bool) : (s.setReady b).config = s.config := rfl
@[simp] theorem State.setReady_pending (b : Bool) : (s.setReady b).pending = s.pending := rfl
@[simp] theorem State.setReady_results (b : Bool) : (s.setReady b).results = s.results := rfl
@[simp] theorem State.setReady_dropLog (b : Bool) : (s.setReady b).dropLog = s.dropLog := rfl

/-! `State.setRx` -/

@[simp] theorem State.setRx_txFrameNum (buf : Bytes) (d : Bool) : (s.setRx buf d).txFrameNum = s.txFrameNum := rfl
@[simp] theorem State.setRx_ackNum (buf : Bytes) (d : Bool) : (s.setRx buf d).ackNum = s.ackNum := rfl
@[simp] theorem State.setRx_ready (buf : Bytes) (d : Bool) : (s.setRx buf d).ready = s.ready := rfl
@[simp] theorem State.setRx_rxDiscarding (buf : Bytes) (d : Bool) : (s.setRx buf d).rxDiscarding = d := rfl
@[simp] theorem State.setRx_rxBuf (buf : Bytes) (d : Bool) : (s.setRx buf d).rxBuf = buf := rfl
@[simp] theorem State.setRx_txQueue (buf : Bytes) (d : Bool) : (s.setRx buf d).txQueue = s.txQueue := rfl
@[simp] theorem State.setRx_rxFrames (buf : Bytes) (d : Bool) : (s.setRx buf d).rxFrames = s.rxFrames := rfl
@[simp] theorem State.setRx_config (buf : Bytes) (d : Bool) : (s.setRx buf d).config = s.config := rfl
@[simp] theorem State.setRx_pending (buf : Bytes) (d : Bool) : (s.setRx buf d).pending = s.pending := rfl
@[simp] theorem State.setRx_results (buf : Bytes) (d : Bool) : (s.setRx buf d).results = s.results := rfl
@[simp] theorem State.setRx_dropLog (buf : Bytes) (d : Bool) : (s.setRx buf d).dropLog = s.dropLog := rfl

/-! `State.setPending` -/

@[simp] theorem State.setPending_txFrameNum (rs : List Request) : (s.setPending rs).txFrameNum = s.txFrameNum := rfl
@[simp] theorem State.setPending_ackNum (rs : List Request) : (s.setPending rs).ackNum = s.ackNum := rfl
@[simp] theorem State.setPending_ready (rs : List Request) : (s.setPending rs).ready = s.ready := rfl
@[simp] theorem State.setPending_rxDiscarding (rs : List Request) : (s.setPending rs).rxDiscarding = s.rxDiscarding := rfl
@[simp] theorem State.setPending_rxBuf (rs : List Request) : (s.setPending rs).rxBuf = s.rxBuf := rfl
@[simp] theorem State.setPending_txQueue (rs : List Request) : (s.setPending rs).txQueue = s.txQueue := rfl
@[simp] theorem State.setPending_rxFrames (rs : List Request) : (s.setPending rs).rxFrames = s.rxFrames := rfl
@[simp] theorem State.setPending_config (rs : List Request) : (s.setPending rs).config = s.config := rfl
@[simp] theorem State.setPending_pending (rs : List Request) : (s.setPending rs).pending = rs := rfl
@[simp] theorem State.setPending_results (rs : List Request) : (s.setPending rs).results = s.results := rfl
@[simp] theorem State.setPending_dropLog (rs : List Request) : (s.setPending rs).dropLog = s.dropLog := rfl

/-! `hardwareReset` (rule R34) -/

@[simp] theorem hardwareReset_txFrameNum : (hardwareReset s).txFrameNum = 0 := rfl
@[simp] theorem hardwareReset_ackNum : (hardwareReset s).ackNum = 0 := rfl
@[simp] theorem hardwareReset_ready : (hardwareReset s).ready = false := rfl
@[simp] theorem hardwareReset_rxDiscarding : (hardwareReset s).rxDiscarding = false := rfl
@[simp] theorem hardwareReset_rxBuf : (hardwareReset s).rxBuf = [] := rfl
@[simp] theorem hardwareReset_txQueue : (hardwareReset s).txQueue = [] := rfl
@[simp] theorem hardwareReset_rxFrames : (hardwareReset s).rxFrames = [] := rfl
@[simp] theorem hardwareReset_config : (hardwareReset s).config = s.config := rfl
@[simp] theorem hardwareReset_pending : (hardwareReset s).pending = s.pending := rfl
@[simp] theorem hardwareReset_results : (hardwareReset s).results = s.results := rfl
@[simp] theorem hardwareReset_dropLog : (hardwareReset s).dropLog = s.dropLog := rfl

end Sys2Proof.Machine
end

