-- ==== Sys2Proof/Laws/Ops.lean ====
section
/-! SUPPORT. What each shared operation can do, said once. -/

namespace Sys2Proof.Machine

open Sys2Proof

/-- Deliver: the frame joins `rx_frames`, or it is lost (rule R105). -/
theorem deliver_cases (f : AshFrame) (s : State) :
    (rxFramesFull s = true ∧ deliver f s = s.drop .rxOverflow) ∨
    (rxFramesFull s = false ∧ deliver f s = s.rxFramePush f) := by
  cases h : rxFramesFull s <;> simp [deliver, h]

/-- AutoAck: an ACK joins `tx_queue`, or it is lost (rule R106). -/
theorem autoAck_cases (s : State) :
    (txFull s = true ∧ autoAck s = s.drop .ackLost) ∨
    (txFull s = false ∧ autoAck s = s.txPush (encodeFrame (.ack s.ackNum))) := by
  cases h : txFull s <;> simp [autoAck, h]

/-- Every frame ends in its delivery, from a state that a DATA frame's ACK or a ResetAck's flag has changed (rule R104). -/
theorem acceptFrame_eq (f : AshFrame) (s : State) :
    (∃ fn an re p, f = .data fn an re p ∧ acceptFrame f s = deliver f (autoAck (s.setAckNum (fn + 1)))) ∨
    (f = .resetAck ∧ acceptFrame f s = deliver f (s.setReady true)) ∨
    ((∀ fn an re p, f ≠ .data fn an re p) ∧ f ≠ .resetAck ∧ acceptFrame f s = deliver f s) := by
  cases f with
  | data fn an re p => exact .inl ⟨fn, an, re, p, rfl, rfl⟩
  | resetAck => exact .inr (.inl ⟨rfl, rfl⟩)
  | reset => exact .inr (.inr ⟨by simp, by simp, rfl⟩)
  | error v k => exact .inr (.inr ⟨by simp, by simp, rfl⟩)
  | ack n => exact .inr (.inr ⟨by simp, by simp, rfl⟩)
  | nak n => exact .inr (.inr ⟨by simp, by simp, rfl⟩)

/-- The end of a candidate: a drop, or the acceptance of a frame that passed every check (rules R88, R102). -/
theorem endCandidate_cases (raw : Bytes) (s : State) :
    (∃ r, decodeCandidate s.config raw = .drop r ∧ endCandidate raw s = s.drop r) ∨
    (∃ f, decodeCandidate s.config raw = .accept f ∧ limitCheck s.config f = none ∧
      endCandidate raw s = acceptFrame f s) := by
  unfold endCandidate
  cases h : decodeCandidate s.config raw with
  | drop r => exact .inl ⟨r, rfl, rfl⟩
  | accept f => exact .inr ⟨f, rfl, limitCheck_of_accept h, rfl⟩

/-- What one fed byte can do (rules R101 to R103). -/
theorem feedByte_cases (s : State) (b : Byte) :
    (b = cancelByte ∧ feedByte s b = (s.setRx [] false).drop .cancelled) ∨
    (b = flagByte ∧ s.rxDiscarding = true ∧ feedByte s b = (s.setRx [] false).drop .overrun) ∨
    (b = flagByte ∧ s.rxDiscarding = false ∧ feedByte s b = endCandidate s.rxBuf (s.setRx [] false)) ∨
    (b ≠ cancelByte ∧ b ≠ flagByte ∧ s.rxDiscarding = true ∧ feedByte s b = s) ∨
    (b ≠ cancelByte ∧ b ≠ flagByte ∧ s.rxDiscarding = false ∧ rxBufFull s = true ∧ feedByte s b = s.setRx [] true) ∨
    (b ≠ cancelByte ∧ b ≠ flagByte ∧ s.rxDiscarding = false ∧ rxBufFull s = false ∧
      feedByte s b = s.setRx (s.rxBuf ++ [b]) false) := by
  unfold feedByte
  by_cases hc : b = cancelByte
  · simp [hc, feedCancel]
  · by_cases hf : b = flagByte
    · subst hf
      cases hd : s.rxDiscarding <;> simp [hc, feedFlag, hd]
    · cases hd : s.rxDiscarding <;> cases hb : rxBufFull s <;> simp [hc, hf, feedOther, hd, hb]

@[simp] theorem feedBytes_nil (s : State) : feedBytes [] s = s := rfl
@[simp] theorem feedBytes_cons (b : Byte) (bs : Bytes) (s : State) : feedBytes (b :: bs) s = feedBytes bs (feedByte s b) := rfl

theorem feedBytes_append (xs ys : Bytes) (s : State) : feedBytes (xs ++ ys) s = feedBytes ys (feedBytes xs s) := by
  simp [feedBytes, List.foldl_append]

/-- An induction for FEED, packaged once: what holds before it and is kept by every byte holds after it. -/
theorem feedBytes_induct {P : State → Prop} (hstep : ∀ s b, P s → P (feedByte s b)) (bs : Bytes) (s : State) (h : P s) :
    P (feedBytes bs s) := by
  induction bs generalizing s with
  | nil => exact h
  | cons b bs ih => exact ih _ (hstep s b h)

/-- The same for a property of the state before the FEED and the state reached. -/
theorem feedBytes_rel {R : State → State → Prop} (hrefl : ∀ s, R s s) (htrans : ∀ a b c, R a b → R b c → R a c)
    (hstep : ∀ s b, R s (feedByte s b)) (bs : Bytes) (s : State) : R s (feedBytes bs s) := by
  induction bs generalizing s with
  | nil => exact hrefl s
  | cons b bs ih => exact htrans _ _ _ (hstep s b) (ih _)

end Sys2Proof.Machine
end

