-- ==== Sys2Proof/Laws/PerInstr.lean ====
section
/-! SUPPORT. The family TableRow: every instruction is encoded under a header that matches its row of
spec/opcode_table.json, one lemma per constructor. -/

namespace Sys2Proof.Laws.TableRow

open Sys2Proof

/-- The instruction's row is in the table, and the header it is encoded with matches that row. -/
def Statement (i : Instr) : Prop := i.row ∈ opcodeTable ∧ i.row.matches (header i) = true

theorem data (fn an : Num3) (re : Bool) (p : Bytes) : Statement (.data fn an re p) := by
  refine ⟨show TableRow.mk true 0x80 0x00 ∈ opcodeTable by decide, ?_⟩
  change TableRow.matches ⟨true, 0x80, 0x00⟩ (controlByte (.data fn an re [])) = true
  revert fn an re
  decide

theorem ack (n : Num3) : Statement (.ack n) := by
  refine ⟨show TableRow.mk true 0xE0 0x80 ∈ opcodeTable by decide, ?_⟩
  change TableRow.matches ⟨true, 0xE0, 0x80⟩ (controlByte (.ack n)) = true
  revert n
  decide

theorem nak (n : Num3) : Statement (.nak n) := by
  refine ⟨show TableRow.mk true 0xE0 0xA0 ∈ opcodeTable by decide, ?_⟩
  change TableRow.matches ⟨true, 0xE0, 0xA0⟩ (controlByte (.nak n)) = true
  revert n
  decide

theorem rst : Statement .rst :=
  ⟨show TableRow.mk true 0xFF 0xC0 ∈ opcodeTable by decide, show TableRow.matches ⟨true, 0xFF, 0xC0⟩ 0xC0 = true by decide⟩

theorem rstack : Statement .rstack :=
  ⟨show TableRow.mk true 0xFF 0xC1 ∈ opcodeTable by decide, show TableRow.matches ⟨true, 0xFF, 0xC1⟩ 0xC1 = true by decide⟩

theorem error (v k : Byte) : Statement (.error v k) :=
  ⟨show TableRow.mk true 0xFF 0xC2 ∈ opcodeTable by decide, show TableRow.matches ⟨true, 0xFF, 0xC2⟩ 0xC2 = true by decide⟩

theorem sendData (p : Bytes) : Statement (.sendData p) :=
  ⟨show TableRow.mk false 0x0F 0x01 ∈ opcodeTable by decide, show TableRow.matches ⟨false, 0x0F, 0x01⟩ 0x01 = true by decide⟩

theorem reset : Statement .reset :=
  ⟨show TableRow.mk false 0x0F 0x02 ∈ opcodeTable by decide, show TableRow.matches ⟨false, 0x0F, 0x02⟩ 0x02 = true by decide⟩

theorem feed (bs : Bytes) : Statement (.feed bs) :=
  ⟨show TableRow.mk false 0x0F 0x03 ∈ opcodeTable by decide, show TableRow.matches ⟨false, 0x0F, 0x03⟩ 0x03 = true by decide⟩

theorem pollOutgoing : Statement .pollOutgoing :=
  ⟨show TableRow.mk false 0x0F 0x04 ∈ opcodeTable by decide, show TableRow.matches ⟨false, 0x0F, 0x04⟩ 0x04 = true by decide⟩

theorem recvFrame : Statement .recvFrame :=
  ⟨show TableRow.mk false 0x0F 0x05 ∈ opcodeTable by decide, show TableRow.matches ⟨false, 0x0F, 0x05⟩ 0x05 = true by decide⟩

theorem readStatus : Statement .readStatus :=
  ⟨show TableRow.mk false 0x0F 0x06 ∈ opcodeTable by decide, show TableRow.matches ⟨false, 0x0F, 0x06⟩ 0x06 = true by decide⟩

end Sys2Proof.Laws.TableRow
end

