-- ==== Sys2Proof/Laws/Step.lean ====
section
/-! SUPPORT. What `exec`, `fetch` and `step` can answer, said once. -/

namespace Sys2Proof.Machine

open Sys2Proof

/-- `fetch` on each shape of `pending`. -/
theorem fetch_idle {s : State} (h : s.pending = []) : fetch s = .idle := by simp [fetch, h]

theorem fetch_restart {s : State} {rest : List Request} (h : s.pending = .hardwareReset :: rest) :
    fetch s = .restart (hardwareReset (s.setPending rest)) := by
  simp [fetch, h]

theorem fetch_run {s : State} {code : OpCode} {operand : Bytes} {rest : List Request} {i : Instr}
    (h : s.pending = .call code operand :: rest) (hd : decodeOperation code operand = .ok i) :
    fetch s = .run i (s.setPending rest) := by
  simp [fetch, h, hd]

theorem fetch_reserved {s : State} {code : OpCode} {operand : Bytes} {rest : List Request} {e : DecodeError}
    (h : s.pending = .call code operand :: rest) (hd : decodeOperation code operand = .rejected e) :
    fetch s = .reserved code := by
  simp [fetch, h, hd]

/-- What a step that answers a next state did: nothing, a hardware reset, or one operation. -/
theorem step_next_cases {s t : State} (h : step s = .next t) :
    (s.pending = [] ∧ t = s) ∨
    (∃ rest, s.pending = .hardwareReset :: rest ∧ t = hardwareReset (s.setPending rest)) ∨
    (∃ code operand rest i, s.pending = .call code operand :: rest ∧ decodeOperation code operand = .ok i ∧
      exec i (s.setPending rest) = .next t) := by
  match hp : s.pending with
  | [] =>
    simp only [step, fetch_idle hp] at h
    cases h
    exact .inl ⟨rfl, rfl⟩
  | .hardwareReset :: rest =>
    simp only [step, fetch_restart hp] at h
    cases h
    exact .inr (.inl ⟨rest, rfl, rfl⟩)
  | .call code operand :: rest =>
    obtain ⟨i, hd, -⟩ | hd := decodeOperation_cases code operand
    · simp only [step, fetch_run hp hd] at h
      exact .inr (.inr ⟨code, operand, rest, i, rfl, hd, h⟩)
    · simp only [step, fetch_reserved hp hd] at h
      cases h

/-- A frame instruction is its configuration check and then AcceptFrame (rules R88, R104). -/
theorem exec_toInstr (f : AshFrame) (s : State) :
    exec f.toInstr s =
      .next (match limitCheck s.config f with
        | some r => s.drop r
        | none => acceptFrame f s) := by
  cases f with
  | data fn an re p =>
    cases h : overMax s.config.maxPayload p.length <;> simp [AshFrame.toInstr, exec, execData, limitCheck, acceptFrame, h]
  | error v k =>
    cases h : errorCodeKnown s.config k <;> simp [AshFrame.toInstr, exec, execError, limitCheck, acceptFrame, h]
  | reset => rfl
  | resetAck => rfl
  | ack n => rfl
  | nak n => rfl

end Sys2Proof.Machine
end

