-- ==== Sys2Proof/Tests/Slice0.lean ====
section
/-! SUPPORT. The model's own tests and the witnesses of the statements' hypotheses. Expected values come from
spec/95_test_vectors.md (the vector's name stands in each docstring) or are written out from 30_encoding.md. -/

namespace Sys2Proof.Tests

open Sys2Proof Sys2Proof.Machine Sys2Proof.Reading

/-- 95_test_vectors.md's default parameters, with its `EC_TEST`. -/
def cfg : Config :=
  { gateSendOnReady := false, rxBufCap := none, txQueueCap := none, rxFrameCap := none, maxPayload := none,
    errorCodes := [0x00, 0x01, 0x02, 0x03, 0x06, 0x09, 0x0B, 0x51] }

/-- The parameters of program P4. -/
def bounded : Config :=
  { cfg with gateSendOnReady := true, rxBufCap := some 8, txQueueCap := some 2, rxFrameCap := some 1, maxPayload := some 4 }

/-- The "fresh" state of the vectors. -/
def fresh : State := State.resetWith cfg

/-- A state in which every register holds something (vector T2). -/
def busy : State :=
  { fresh with
    txFrameNum := 1, ackNum := 5, ready := true, rxBuf := [0x41],
    txQueue := [[0x00, 0x43, 0x65, 0xA8, 0x7E], [0x85, 0x20, 0xDD, 0x7E]], rxFrames := [.data 4 0 false [], .resetAck] }

/-- The state of program P4 with both queues full. -/
def full : State :=
  { State.resetWith bounded with
    txFrameNum := 2, ready := true, txQueue := [[0x00, 0x43, 0x65, 0xA8, 0x7E], [0x10, 0x40, 0x56, 0xB8, 0x7E]],
    rxFrames := [.resetAck] }

/-- One step with a call presented. -/
def after (s : State) (code : OpCode) (operand : Bytes) : Option State :=
  match step { s with pending := [.call code operand] } with
  | .next t => some t
  | .fault _ => none
  | .refused _ => none

/-- The next state of one instruction. -/
def ran (i : Instr) (s : State) : Option State :=
  match exec i s with
  | .next t => some t
  | .fault _ => none
  | .refused _ => none

/-! ## Well-formedness: an ill-formed term for each check -/

theorem test_wf_payload_too_long : (Instr.data 0 0 false [1, 2, 3, 4, 5]).wf bounded = false := by decide
theorem test_wf_payload_at_limit : (Instr.data 0 0 false [1, 2, 3, 4]).wf bounded = true := by decide
theorem test_wf_unknown_error_code : (Instr.error 0x02 0x04).wf cfg = false := by decide
theorem test_wf_known_error_code : (Instr.error 0x02 0x51).wf cfg = true := by decide

/-! ## Decoding: every constructor by a word written out from its encoding -/

/-- Rule R56's layout `0 fff r nnn` with fn = 2, re = 0, an = 5; vector DC23. -/
theorem test_decode_data :
    decode (.frame [0b0_010_0_101, 0x42, 0x21, 0xA8, 0x56, 0xA6, 0x09, 0x7E]) = .ok (.data 2 5 false [0, 0, 0, 2]) := by decide
/-- fn = 7, re = 1, an = 7; vector of L2.4. -/
theorem test_decode_data_retransmit :
    decode (.frame [0b0_111_1_111, 0xE8, 0x79, 0x4E, 0x7E]) = .ok (.data 7 7 true [0xAA]) := by decide
/-- An escaped control byte, an asymmetric fn and an; vector DC29. -/
theorem test_decode_data_escaped : decode (.frame [0x7D, 0x3A, 0x47, 0xC9, 0x94, 0x7E]) = .ok (.data 1 2 true [0x05]) := by
  decide
/-- Rule R57's layout `1 0 0 0 0 nnn`. -/
theorem test_decode_ack : decode (.frame [0b10000_001, 0x60, 0x59, 0x7E]) = .ok (.ack 1) := by decide
/-- Bits 4:3 set; vector DC9. -/
theorem test_decode_ack_ignored_bits : decode (.frame [0b10011_000, 0xE3, 0x41, 0x7E]) = .ok (.ack 0) := by decide
/-- Rule R58's layout `1 0 1 0 0 nnn`, the checksum stuffed; vector DC11. -/
theorem test_decode_nak : decode (.frame [0b10100_000, 0x54, 0x7D, 0x3A, 0x7E]) = .ok (.nak 0) := by decide
/-- Vector DC12. -/
theorem test_decode_rst : decode (.frame [0xC0, 0x38, 0xBC, 0x7E]) = .ok .rst := by decide
/-- Vector DC15: a ResetAck with two extra field bytes. -/
theorem test_decode_rstack : decode (.frame [0xC1, 0x02, 0x0B, 0x0A, 0x52, 0x7E]) = .ok .rstack := by decide
/-- Vector DC21. -/
theorem test_decode_error : decode (.frame [0xC2, 0x02, 0x51, 0xA8, 0xBD, 0x7E]) = .ok (.error 0x02 0x51) := by decide
/-- Rule R71's six codes. -/
theorem test_decode_operations :
    [decode (.call 0b0001 [9, 8]), decode (.call 0b0010 []), decode (.call 0b0011 [9, 8]), decode (.call 0b0100 []),
      decode (.call 0b0101 []), decode (.call 0b0110 [])] =
    [.ok (.sendData [9, 8]), .ok .reset, .ok (.feed [9, 8]), .ok .pollOutgoing, .ok .recvFrame, .ok .readStatus] := by decide
theorem test_decode_reserved : decode (.call 0x0 []) = .rejected (.reservedOperation 0x0) ∧
    decode (.call 0x7 []) = .rejected (.reservedOperation 0x7) := by decide
theorem test_decode_not_terminated : decode (.frame [0xC0, 0x38, 0xBC]) = .rejected .notTerminated := by decide
theorem test_decode_inner_terminator : decode (.frame [0x7E, 0xC0, 0x38, 0xBC, 0x7E]) = .rejected .innerTerminator := by decide
/-- Vectors DC5, DC4, DC14, DC17, DC19, in rule R88's order of checks. -/
theorem test_decode_drops :
    [parseCandidate [0x80, 0x70, 0x7D], parseCandidate [0x7D, 0x7D], parseCandidate [0xC1, 0x38, 0xBC],
      parseCandidate [0xE0, 0x02, 0x51, 0x40, 0x1B], parseCandidate [0xC2, 0x02, 0x4D, 0x7B]] =
    [.drop .badEscape, .drop .tooShort, .drop .checksumMismatch, .drop .unknownControl, .drop .tooShort] := by decide
/-- Vectors DC24, DC25, DC20. -/
theorem test_decode_limits :
    decodeCandidate { cfg with maxPayload := some 3 } [0x25, 0x42, 0x21, 0xA8, 0x56, 0xA6, 0x09] = .drop .tooLong ∧
    decodeCandidate { cfg with maxPayload := some 4 } [0x25, 0x42, 0x21, 0xA8, 0x56, 0xA6, 0x09] =
      .accept (.data 2 5 false [0, 0, 0, 2]) ∧
    decodeCandidate cfg [0xC2, 0x02, 0x04, 0xA2, 0xED] = .drop .unknownErrorCode := by decide
/-- Vectors DC26 and DC28: raw XON, XOFF and SUBSTITUTE are data; an escape of a byte that is not reserved is undone. -/
theorem test_decode_literal_unstuffing :
    parseCandidate [0x00, 0x11, 0x13, 0x18, 0x35, 0x8A] = .accept (.data 0 0 false [0x53, 0x32, 0xB0]) ∧
    parseCandidate [0x00, 0x7D, 0x61, 0x45, 0xEA] = .accept (.data 0 0 false [0x03]) := by decide

/-- The opcode table's rows do not overlap inside a code space. -/
theorem test_table_rows_do_not_overlap :
    opcodeTable.Pairwise (fun r q => r.isFrame = q.isFrame → r.pattern &&& (r.mask &&& q.mask) ≠ q.pattern &&& (r.mask &&& q.mask)) := by
  decide
/-- Each table word is run by the first step after reset. -/
theorem test_table_words_run :
    [0x00, 0x80, 0xA0, 0xC0, 0xC1, 0xC2, 0x01, 0x02, 0x03, 0x04, 0x05, 0x06].all
      (fun w => match step (State.reset.withFetchWord 8 w) with | .next _ => true | .fault _ => false | .refused _ => false) = true := by
  decide

/-! ## Codecs -/

/-- L1.1, and the check value of L2.1. -/
theorem test_crc : crc16 [0x53, 0x42, 0xA1, 0xA8, 0x56, 0x28, 0x04, 0x82] = 0x032A ∧
    crc16 [0x31, 0x32, 0x33, 0x34, 0x35, 0x36, 0x37, 0x38, 0x39] = 0x29B1 := by decide
/-- L2.3: the first sixteen mask values. -/
theorem test_mask : (List.range 16).map mask =
    [0x42, 0x21, 0xA8, 0x54, 0x2A, 0x15, 0xB2, 0x59, 0x94, 0x4A, 0x25, 0xAA, 0x55, 0x92, 0x49, 0x9C] := by decide
/-- L2.2. -/
theorem test_stuff : stuff [0x00, 0x7E, 0x41, 0x7D, 0x5E] = [0x00, 0x7D, 0x5E, 0x41, 0x7D, 0x5D, 0x5E] ∧
    unstuff [0x7D, 0x7D] = some [0x5D] ∧ unstuff [0x41, 0x7D] = none := by decide
/-- L2.4: control byte 0x13 and a masked byte 0x7E both stuffed; a stuffed field byte of Error. -/
theorem test_encode : encodeFrame (.data 1 3 false [0x3C]) = [0x7D, 0x33, 0x7D, 0x5E, 0xD4, 0x76, 0x7E] ∧
    encodeFrame (.error 0x7E 0x02) = [0xC2, 0x7D, 0x5E, 0x02, 0x8F, 0x1F, 0x7E] := by decide

/-! ## One step of each instruction -/

/-- S3: the counter wraps from 7 to 0. -/
theorem test_sendData_wraps : (after { fresh with txFrameNum := 7 } 0x1 []).map (fun t => (t.txFrameNum, t.txQueue, t.results)) =
    some (0, [[0x70, 0x9F, 0x67, 0x7E]], [.sent 7]) := by decide
/-- S8 and S7: the first refusal wins; a full queue does not advance the counter. -/
theorem test_sendData_refusals :
    (after (State.resetWith bounded) 0x1 [1, 2, 3, 4, 5]).map (·.results) = some [.status .linkNotReady] ∧
    (after full 0x1 [3]).map (fun t => (t.txFrameNum, t.results)) = some (2, [.status .txFull]) := by decide
/-- T2. -/
theorem test_reset : after busy 0x2 [] = some { busy with
    ready := false, txQueue := busy.txQueue ++ [[0xC0, 0x38, 0xBC, 0x7E]], results := [.status .ok] } := by decide
/-- T3. -/
theorem test_reset_full : after full 0x2 [] = some { full with results := [.status .txFull] } := by decide
/-- FD2. -/
theorem test_feed_data : after fresh 0x3 [0x02, 0x52, 0x01, 0x98, 0x14, 0x39, 0x1B, 0x7E] = some { fresh with
    ackNum := 1, txQueue := [[0x81, 0x60, 0x59, 0x7E]], rxFrames := [.data 0 2 false [0x10, 0x20, 0x30, 0x40]],
    results := [.consumed 8] } := by decide
/-- FD9: the ninth byte overruns. -/
theorem test_feed_overrun : after { fresh with config := bounded } 0x3 [1, 2, 3, 4, 5, 6, 7, 8, 9] =
    some { fresh with config := bounded, rxDiscarding := true, results := [.consumed 9] } := by decide
/-- Q2, and Q1. -/
theorem test_pollOutgoing : (after busy 0x4 []).map (fun t => (t.txQueue, t.results)) =
    some ([[0x85, 0x20, 0xDD, 0x7E]], [.polled (some [0x00, 0x43, 0x65, 0xA8, 0x7E])]) ∧
    after fresh 0x4 [] = some { fresh with results := [.polled none] } := by decide
/-- Q4's shape, and Q3. -/
theorem test_recvFrame : (after busy 0x5 []).map (fun t => (t.rxFrames, t.results)) =
    some ([.resetAck], [.received (some (.data 4 0 false []))]) ∧
    after fresh 0x5 [] = some { fresh with results := [.received none] } := by decide
/-- T2's STATUS 0x95, and Q6's 0x08. -/
theorem test_readStatus : after busy 0x6 [] = some { busy with results := [.statusRead 0x95 2 2 1] } ∧
    (after { fresh with rxDiscarding := true } 0x6 []).map (·.results) = some [.statusRead 0x08 0 0 0] := by decide
/-- FD14: both losses, the ack number kept. -/
theorem test_data_both_queues_full : ran (.data 5 0 false [9]) full =
    some { full with ackNum := 6, dropLog := [.ackLost, .rxOverflow] } := by decide
/-- FD13: the ack number wraps. -/
theorem test_data_wraps : (ran (.data 7 1 false []) { fresh with ackNum := 4 }).map (fun t => (t.ackNum, t.txQueue)) =
    some (0, [[0x80, 0x70, 0x78, 0x7E]]) := by decide
/-- FD1. -/
theorem test_ack : ran (.ack 1) fresh = some { fresh with rxFrames := [.ack 1] } := by decide
theorem test_nak : ran (.nak 3) busy = some { busy with rxFrames := busy.rxFrames ++ [.nak 3] } := by decide
theorem test_rst : ran .rst busy = some { busy with rxFrames := busy.rxFrames ++ [.reset] } := by decide
/-- FD3. -/
theorem test_rstack : ran .rstack fresh = some { fresh with ready := true, rxFrames := [.resetAck] } := by decide
/-- P3, steps 9 and 10. -/
theorem test_error : ran (.error 0x02 0x51) busy = some { busy with rxFrames := busy.rxFrames ++ [.error 0x02 0x51] } ∧
    ran (.error 0x02 0x04) busy = some { busy with dropLog := [.unknownErrorCode] } := by decide
theorem test_reserved_is_refused : after fresh 0x7 [] = none ∧ after fresh 0x0 [] = none := by decide
theorem test_hardware_reset :
    step { busy with pending := [.hardwareReset] } = .next { fresh with pending := [] } := rfl

/-! ## Witnesses: a state and operands that meet each statement's hypotheses, clause by clause at the edge of its range -/

theorem witness_StuffingFollowsPseudocode : ∃ b : Byte, b ≠ 0x7D ∧ b = 0x7C := ⟨0x7C, by decide⟩
theorem witness_FrameRoundTrip_data : ∃ (c : Config) (p : Bytes) (m : Nat), c.maxPayload = some m ∧ p.length = m ∧
    (∀ fn an re q k, AshFrame.data 7 7 true p = .data fn an re q → c.maxPayload = some k → q.length ≤ k) ∧
    (∀ v k, AshFrame.data 7 7 true p = .error v k → k ∈ c.errorCodes) :=
  ⟨bounded, [1, 2, 3, 4], 4, rfl, rfl, by
    intro fn an re q k h hk
    cases h
    cases hk
    decide, by simp⟩
theorem witness_FrameRoundTrip_error : ∃ (c : Config),
    (∀ fn an re q k, AshFrame.error 2 0x51 = .data fn an re q → c.maxPayload = some k → q.length ≤ k) ∧
    (∀ v k, AshFrame.error 2 0x51 = .error v k → k ∈ c.errorCodes) :=
  ⟨cfg, by simp, by
    intro v k h
    cases h
    decide⟩
/-- P3, step 9's candidate, its flag still to come. -/
theorem witness_UnknownErrorCodeIsDropped : ∃ (s : State) (v k : Byte) (extra : Bytes), k ∉ s.config.errorCodes ∧
    s.rxDiscarding = false ∧ s.rxBuf = sealBody (0xC2 :: v :: k :: extra) :=
  ⟨{ fresh with rxBuf := [0xC2, 0x02, 0x04, 0xA2, 0xED] }, 0x02, 0x04, [], by decide⟩
theorem witness_UnassignedControlBytes_lowest : ∃ (s : State) (h : Byte) (F : Bytes),
    h.toNat = 0xC3 ∧ s.rxDiscarding = false ∧ s.rxBuf = sealBody (h :: F) :=
  ⟨{ fresh with rxBuf := [0xC3, 0x08, 0xDF] }, 0xC3, [], by decide⟩
theorem witness_UnassignedControlBytes_highest : ∃ (s : State) (h : Byte) (F : Bytes),
    h.toNat = 0xFF ∧ s.rxDiscarding = false ∧ s.rxBuf = sealBody (h :: F) :=
  ⟨{ fresh with rxBuf := [0xFF, 0xFF, 0x00] }, 0xFF, [], by decide⟩
/-- Rule R54's map at the two ends of each row. -/
theorem witness_ControlByteDecodeMap : [classify 0x7F [], classify 0x80 [], classify 0x9F [], classify 0xA0 [], classify 0xBF [],
      classify 0xC0 [], classify 0xC1 [], classify 0xC2 [1, 2], classify 0xC2 [1], classify 0xC3 [], classify 0xFF []] =
    [.accept (.data 7 7 true []), .accept (.ack 0), .accept (.ack 7), .accept (.nak 0), .accept (.nak 7), .accept .reset,
      .accept .resetAck, .accept (.error 1 2), .drop .tooShort, .drop .unknownControl, .drop .unknownControl] := by decide
/-- Each branch of SEND_DATA is reached: S5, S6, S7, S1. -/
theorem witness_SendDataEffect :
    (∃ s : State, s.config.gateSendOnReady = true ∧ s.ready = false) ∧
    (∃ (s : State) (p : Bytes), s.ready = true ∧ exceeds s.config.maxPayload p.length = true) ∧
    (∃ (s : State) (p : Bytes), s.ready = true ∧ exceeds s.config.maxPayload p.length = false ∧
      s.config.txQueueCap = some s.txQueue.length) ∧
    (∃ (s : State) (p : Bytes), s.config.gateSendOnReady = false ∧ exceeds s.config.maxPayload p.length = false ∧
      s.config.txQueueCap ≠ some s.txQueue.length) :=
  ⟨⟨State.resetWith bounded, by decide⟩, ⟨full, [1, 2, 3, 4, 5], by decide⟩, ⟨full, [1, 2, 3, 4], by decide⟩, ⟨fresh, [1], by decide⟩⟩
theorem witness_SendsNumberFramesModEight : ∃ s : State,
    s.config.gateSendOnReady = false ∧ s.config.maxPayload = none ∧ s.config.txQueueCap = none := ⟨busy, by decide⟩
theorem witness_ResetOperationEffect : (∃ s : State, s.config.txQueueCap = some s.txQueue.length) ∧
    (∃ s : State, s.config.txQueueCap ≠ some s.txQueue.length) := ⟨⟨full, by decide⟩, ⟨busy, by decide⟩⟩
/-- The flag byte's three outcomes: OVERRUN, a drop, an accepted frame. -/
theorem witness_FlagByteEffect : (∃ s : State, s.rxDiscarding = true) ∧
    (∃ (s : State) (r : DropReason), s.rxDiscarding = false ∧ decodeByR88 s.config s.rxBuf = .drop r) ∧
    (∃ (s : State) (f : AshFrame), s.rxDiscarding = false ∧ decodeByR88 s.config s.rxBuf = .accept f) :=
  ⟨⟨{ fresh with rxDiscarding := true }, rfl⟩, ⟨busy, .tooShort, by decide⟩,
    ⟨{ fresh with rxBuf := [0x83, 0x40, 0x1B] }, .ack 3, by decide⟩⟩
/-- Any other byte's three outcomes, with a reserved byte that is no terminator. -/
theorem witness_OtherByteEffect : (∃ (s : State) (b : Byte), b ≠ 0x7E ∧ b ≠ 0x1A ∧ s.rxDiscarding = true) ∧
    (∃ (s : State) (b : Byte), b ≠ 0x7E ∧ b ≠ 0x1A ∧ s.rxDiscarding = false ∧ s.config.rxBufCap = some s.rxBuf.length) ∧
    (∃ (s : State) (b : Byte), b ≠ 0x7E ∧ b ≠ 0x1A ∧ s.rxDiscarding = false ∧ s.config.rxBufCap ≠ some s.rxBuf.length) :=
  ⟨⟨{ fresh with rxDiscarding := true }, 0x7D, by decide⟩,
    ⟨{ State.resetWith bounded with rxBuf := [1, 2, 3, 4, 5, 6, 7, 8] }, 0x11, by decide⟩, ⟨fresh, 0x7D, by decide⟩⟩
/-- Each type of frame accepted, the DATA frame with both queues full too. -/
theorem witness_AcceptedFrameEffects :
    ([([0x00, 0xE1, 0xF0], .data 0 0 false []), ([0xC1, 0x28, 0x9D], .resetAck), ([0x81, 0x60, 0x59], .ack 1),
      ([0xA3, 0x64, 0x79], .nak 3), ([0xC0, 0x38, 0xBC], .reset), ([0xC2, 0x02, 0x51, 0xA8, 0xBD], .error 0x02 0x51)] :
        List (Bytes × AshFrame)).all
      (fun p => ({ full with rxBuf := p.1 } : State).rxDiscarding == false && decodeByR88 full.config p.1 == .accept p.2 &&
        full.config.txQueueCap == some full.txQueue.length && full.config.rxFrameCap == some full.rxFrames.length &&
        decodeByR88 fresh.config p.1 == .accept p.2) = true := by decide
/-- A received DATA frame's branches: too long; both queues full; neither. -/
theorem witness_ReceivedFrameEffects :
    (∃ (s : State) (p : Bytes), exceeds s.config.maxPayload p.length = true) ∧
    (∃ (s : State) (p : Bytes), exceeds s.config.maxPayload p.length = false ∧ s.config.txQueueCap = some s.txQueue.length ∧
      s.config.rxFrameCap = some s.rxFrames.length) ∧
    (∃ (s : State) (p : Bytes), exceeds s.config.maxPayload p.length = false ∧ s.config.txQueueCap ≠ some s.txQueue.length ∧
      s.config.rxFrameCap ≠ some s.rxFrames.length) :=
  ⟨⟨full, [1, 2, 3, 4, 5], by decide⟩, ⟨full, [1, 2, 3, 4], by decide⟩, ⟨fresh, [], by decide⟩⟩
theorem witness_PollOutgoingEffect : (∃ s : State, s.txQueue = []) ∧ (∃ (s : State) (w : Bytes) (r : List Bytes), s.txQueue = w :: r) :=
  ⟨⟨fresh, rfl⟩, ⟨busy, _, _, rfl⟩⟩
theorem witness_RecvFrameEffect :
    (∃ s : State, s.rxFrames = []) ∧ (∃ (s : State) (f : AshFrame) (r : List AshFrame), s.rxFrames = f :: r) :=
  ⟨⟨fresh, rfl⟩, ⟨busy, _, _, rfl⟩⟩
/-- FEED completes, from a state that holds a partial candidate and a set `ready`. -/
theorem witness_FeedFrame : ∃ t, exec (.feed [0x7E, 0xC1, 0x28, 0x9D, 0x7E]) busy = .next t ∧ busy.ready = true := ⟨_, rfl, rfl⟩
theorem witness_FeedAgreesWithBufferScan : ∃ s : State, s.config.rxBufCap = none ∧ s.rxDiscarding = false ∧ s.rxBuf ≠ [] ∧
    ∀ b ∈ s.rxBuf, isTerminator b = false := ⟨busy, by decide⟩
theorem witness_OverlongCandidateIsDiscardedWhole : ∃ (s : State) (raw : Bytes), s.config.rxBufCap = some 8 ∧
    s.rxDiscarding = false ∧ s.rxBuf = [] ∧ (∀ b ∈ raw, isTerminator b = false) ∧ 8 < raw.length :=
  ⟨State.resetWith bounded, [1, 2, 3, 4, 5, 6, 7, 8, 9], by decide⟩
theorem witness_CancelResynchronises : ∃ (s : State) (f : AshFrame), s.rxDiscarding = true ∧
    ∀ cap, s.config.rxBufCap = some cap → (encodeFrame f).length ≤ cap + 1 :=
  ⟨{ State.resetWith bounded with rxDiscarding := true }, .data 0 0 false [1, 2, 3, 4], rfl, by
    intro cap h
    cases h
    decide⟩
/-- A leading flag on an empty buffer, and on one that holds noise. -/
theorem witness_CancelResynchronises_flag : (fresh.rxBuf = [] ∧ fresh.rxDiscarding = false) ∧ busy.rxBuf ≠ [] ∧
    ∀ cap, busy.config.rxBufCap = some cap → (encodeFrame (.ack 3)).length ≤ cap + 1 := by
  refine ⟨by decide, by decide, ?_⟩
  intro cap h
  cases h
/-- Gated and ready, with room for just two frames; the candidate is the DATA frame of program P4's step 8. -/
theorem witness_SendAfterDataCarriesNewAck : ∃ (s : State) (p q : Bytes), (s.config.gateSendOnReady = false ∨ s.ready = true) ∧
    s.config.txQueueCap ≠ some s.txQueue.length ∧ s.config.txQueueCap ≠ some (s.txQueue.length + 1) ∧
    exceeds s.config.maxPayload q.length = false ∧ s.rxDiscarding = false ∧
    decodeCandidate s.config s.rxBuf = .accept (.data 5 0 false p) ∧ exceeds s.config.maxPayload p.length = false :=
  ⟨{ State.resetWith bounded with ready := true, rxBuf := [0x50, 0x4B, 0xEA, 0x1F] }, [9], [1, 2, 3, 4], by decide⟩
theorem witness_StepRunsDecodedOperation : ∃ (s : State) (code : OpCode) (operand : Bytes) (rest : List Request) (i : Instr),
    s.pending = .call code operand :: rest ∧ decodeOperation code operand = .ok i :=
  ⟨{ busy with pending := [.call 0x6 [], .hardwareReset] }, 0x6, [], [.hardwareReset], .readStatus, rfl, rfl⟩
/-- FD6's prefix then the rest of `Ack{3}`, with a buffer that the candidate just fills. -/
theorem witness_StepRunsDecodedFrame : ∃ (s : State) (bs : Bytes) (rest : List Request) (f : AshFrame),
    s.pending = .call 0x3 (bs ++ [0x7E]) :: rest ∧ s.rxDiscarding = false ∧ (∀ b ∈ bs, isTerminator b = false) ∧
    (∀ cap, s.config.rxBufCap = some cap → s.rxBuf.length + bs.length ≤ cap) ∧
    decodeWire (s.rxBuf ++ bs ++ [0x7E]) = .ok f.toInstr :=
  ⟨{ fresh with config := { cfg with rxBufCap := some 3 }, rxBuf := [0x83, 0x40], pending := [.call 0x3 [0x1B, 0x7E]] }, [0x1B], [],
    .ack 3, rfl, rfl, by decide, by
      intro cap h
      cases h
      decide, by decide⟩
/-- Both ends of the two reserved ranges. -/
theorem witness_OperationCodesAndReservedRefusal : ∀ code ∈ ([0x0, 0x7, 0xF] : List OpCode),
    step { fresh with pending := [.call code []] } = .refused (.reservedOperation code) := by
  intro code h
  simp only [List.mem_cons, List.not_mem_nil, or_false] at h
  rcases h with rfl | rfl | rfl <;> rfl
theorem witness_IdleStepChangesNothing : busy.pending = [] := rfl
theorem witness_HardwareResetStep : ({ busy with pending := [.hardwareReset] } : State).pending = .hardwareReset :: [] := rfl
/-- A state that meets the invariant and steps: an overrun just before its terminator. -/
theorem witness_StepKeepsInvariant : ∃ s t : State, s.Inv ∧ s.rxDiscarding = true ∧ step s = .next t := by
  refine ⟨{ State.resetWith bounded with rxDiscarding := true, pending := [.call 0x3 [0x7E]] }, _, ?_, rfl, rfl⟩
  refine ⟨⟨?_, ?_, fun _ => rfl⟩, ⟨?_, ?_⟩, ⟨?_, ?_⟩, ?_⟩
  · intro b hb
    cases hb
  · intro c _
    exact Nat.zero_le c
  · intro w hw
    cases hw
  · intro c _
    exact Nat.zero_le c
  · intro f hf
    cases hf
  · intro c _
    exact Nat.zero_le c
  · intro _ h
    cases h
theorem witness_ConfigurationIsNeverWritten : ∃ t, step { busy with pending := [.call 0x2 []] } = .next t := ⟨_, rfl⟩
theorem witness_FrameCounterWrittenOnlyBySendData : ∃ t, exec (.sendData []) fresh = .next t ∧ t.txFrameNum ≠ fresh.txFrameNum :=
  ⟨_, rfl, by decide⟩
theorem witness_AckNumWrittenOnlyByAcceptedData :
    (feedByte { fresh with rxBuf := [0x39, 0x17, 0xC0, 0xD4] } 0x7E).ackNum ≠ fresh.ackNum ∧
    (∃ t, exec (.data 3 1 true [0x55]) fresh = .next t ∧ t.ackNum ≠ fresh.ackNum) ∧
    (∃ t, exec (.feed [0x39, 0x17, 0xC0, 0xD4, 0x7E]) fresh = .next t ∧ t.ackNum ≠ fresh.ackNum) :=
  ⟨by decide, ⟨_, rfl, by decide⟩, ⟨_, rfl, by decide⟩⟩
theorem witness_ReadyWrittenOnlyByResetAndResetAck :
    (feedByte { fresh with rxBuf := [0xC1, 0x28, 0x9D] } 0x7E).ready ≠ fresh.ready ∧
    (∃ t, exec .reset busy = .next t ∧ t.ready ≠ busy.ready) ∧ (∃ t, exec .rstack fresh = .next t ∧ t.ready ≠ fresh.ready) ∧
    (∃ t, exec (.feed [0xC1, 0x28, 0x9D, 0x7E]) fresh = .next t ∧ t.ready ≠ fresh.ready) :=
  ⟨by decide, ⟨_, rfl, by decide⟩, ⟨_, rfl, by decide⟩, ⟨_, rfl, by decide⟩⟩
theorem witness_QueuesAreFifo : (∃ t, exec .pollOutgoing busy = .next t) ∧ (∃ t, exec .recvFrame busy = .next t) :=
  ⟨⟨_, rfl⟩, ⟨_, rfl⟩⟩
theorem witness_GhostLogAndResultsAreNeverRead : ∃ t, exec (.feed [0x1A]) { busy with dropLog := [.overrun] } = .next t := ⟨_, rfl⟩
theorem witness_BringUpMakesLinkReady : ∃ c : Config, c.txQueueCap ≠ some 0 ∧ (∀ cap, c.rxBufCap = some cap → 3 ≤ cap) :=
  ⟨{ bounded with rxBufCap := some 3, txQueueCap := some 1 }, by decide, by
    intro cap h
    cases h
    decide⟩

end Sys2Proof.Tests
end

section
/-! Proofs of the statements about the state (10_state.md): first what one instruction can do and what reception leaves alone,
then the invariant, the writers of each register, and the ghost fields. -/

namespace Sys2Proof.Machine

open Sys2Proof Sys2Proof.Reading

/-! ## What one instruction can do -/

/-- What running instruction `i` on `s` can lead to: `exec`, branch by branch, with the guard under which each branch is taken that
changes more than the observation. -/
inductive Executed (s : State) : Instr → State → Prop where
  /-- A frame that fails a configuration check (rule R88). -/
  | dropped (f : AshFrame) (r : DropReason) : limitCheck s.config f = some r → Executed s f.toInstr (s.drop r)
  /-- A frame that passes them (rule R104). -/
  | accepted (f : AshFrame) : limitCheck s.config f = none → Executed s f.toInstr (acceptFrame f s)
  /-- An operation that only returns a result: a refusal, an empty queue, READ_STATUS (rules R96, R107 to R109). -/
  | answered (i : Instr) (r : Result) : i.toFrame? = none → Executed s i (s.record r)
  /-- SEND_DATA with no refusal (rule R97). -/
  | sent (p : Bytes) : txFull s = false → Executed s (.sendData p)
      (({ s.txPush (encodeFrame (.data s.txFrameNum s.ackNum false p)) with txFrameNum := s.txFrameNum + 1 } : State).record
        (.sent s.txFrameNum))
  /-- RESET with room in `tx_queue` (rule R99). -/
  | reset : txFull s = false → Executed s .reset (((s.txPush (encodeFrame .reset)).setReady false).record (.status .ok))
  /-- FEED (rule R100). -/
  | fed (bs : Bytes) : Executed s (.feed bs) ((feedBytes bs s).record (.consumed bs.length))
  /-- POLL_OUTGOING on a queue with a head (rule R107). -/
  | polled (w : Bytes) (rest : List Bytes) : s.txQueue = w :: rest →
      Executed s .pollOutgoing (({ s with txQueue := rest } : State).record (.polled (some w)))
  /-- RECV_FRAME on a queue with a head (rule R108). -/
  | received (f : AshFrame) (rest : List AshFrame) : s.rxFrames = f :: rest →
      Executed s .recvFrame (({ s with rxFrames := rest } : State).record (.received (some f)))

theorem executed_of_exec_toInstr {f : AshFrame} {s t : State} (h : exec f.toInstr s = .next t) : Executed s f.toInstr t := by
  rw [exec_toInstr] at h
  cases hl : limitCheck s.config f with
  | some r =>
    simp only [hl] at h
    cases h
    exact .dropped f r hl
  | none =>
    simp only [hl] at h
    cases h
    exact .accepted f hl

theorem executed_of_execSendData {p : Bytes} {s t : State} (h : execSendData p s = .next t) : Executed s (.sendData p) t := by
  unfold execSendData at h
  cases h
  split
  · exact .answered _ _ rfl
  · split
    · exact .answered _ _ rfl
    · split
      · exact .answered _ _ rfl
      · exact .sent p (by simpa using ‹¬ txFull s = true›)

theorem executed_of_execReset {s t : State} (h : execReset s = .next t) : Executed s .reset t := by
  unfold execReset at h
  cases h
  split
  · exact .answered _ _ rfl
  · exact .reset (by simpa using ‹¬ txFull s = true›)

theorem executed_of_execPollOutgoing {s t : State} (h : execPollOutgoing s = .next t) : Executed s .pollOutgoing t := by
  unfold execPollOutgoing at h
  cases h
  split
  · exact .answered _ _ rfl
  · exact .polled _ _ ‹_›

theorem executed_of_execRecvFrame {s t : State} (h : execRecvFrame s = .next t) : Executed s .recvFrame t := by
  unfold execRecvFrame at h
  cases h
  split
  · exact .answered _ _ rfl
  · exact .received _ _ ‹_›

/-- The inversion of `exec`: each proof about all instructions is a case split on this. -/
theorem executed_of_exec {i : Instr} {s t : State} (h : exec i s = .next t) : Executed s i t := by
  cases i with
  | data fn an re p => exact executed_of_exec_toInstr (f := .data fn an re p) h
  | ack n => exact executed_of_exec_toInstr (f := .ack n) h
  | nak n => exact executed_of_exec_toInstr (f := .nak n) h
  | rst => exact executed_of_exec_toInstr (f := .reset) h
  | rstack => exact executed_of_exec_toInstr (f := .resetAck) h
  | error v k => exact executed_of_exec_toInstr (f := .error v k) h
  | sendData p => exact executed_of_execSendData h
  | reset => exact executed_of_execReset h
  | feed bs =>
    cases h
    exact .fed bs
  | pollOutgoing => exact executed_of_execPollOutgoing h
  | recvFrame => exact executed_of_execRecvFrame h
  | readStatus =>
    cases h
    exact .answered _ _ rfl

/-! ## What reception leaves alone -/

/-- The fields no reception writes: the frame counter (rule R17), the configuration (rule R30), the calls waiting and the results. -/
structure State.KeptByReception (s t : State) : Prop where
  txFrameNum : t.txFrameNum = s.txFrameNum
  config : t.config = s.config
  pending : t.pending = s.pending
  results : t.results = s.results

theorem State.KeptByReception.refl (s : State) : s.KeptByReception s := ⟨rfl, rfl, rfl, rfl⟩

theorem State.KeptByReception.trans {s t u : State} (h : s.KeptByReception t) (h' : t.KeptByReception u) : s.KeptByReception u :=
  ⟨h'.txFrameNum.trans h.txFrameNum, h'.config.trans h.config, h'.pending.trans h.pending, h'.results.trans h.results⟩

theorem keptByReception_deliver (f : AshFrame) (s : State) : s.KeptByReception (deliver f s) := by
  obtain ⟨-, h⟩ | ⟨-, h⟩ := deliver_cases f s <;> rw [h] <;> exact ⟨rfl, rfl, rfl, rfl⟩

theorem keptByReception_autoAck (s : State) : s.KeptByReception (autoAck s) := by
  obtain ⟨-, h⟩ | ⟨-, h⟩ := autoAck_cases s <;> rw [h] <;> exact ⟨rfl, rfl, rfl, rfl⟩

theorem keptByReception_acceptFrame (f : AshFrame) (s : State) : s.KeptByReception (acceptFrame f s) := by
  obtain ⟨fn, an, re, p, -, h⟩ | ⟨-, h⟩ | ⟨-, -, h⟩ := acceptFrame_eq f s
  · have hack : s.KeptByReception (s.setAckNum (fn + 1)) := ⟨rfl, rfl, rfl, rfl⟩
    rw [h]
    exact (hack.trans (keptByReception_autoAck _)).trans (keptByReception_deliver f _)
  · have hready : s.KeptByReception (s.setReady true) := ⟨rfl, rfl, rfl, rfl⟩
    rw [h]
    exact hready.trans (keptByReception_deliver f _)
  · rw [h]
    exact keptByReception_deliver f s

theorem keptByReception_endCandidate (raw : Bytes) (s : State) : s.KeptByReception (endCandidate raw s) := by
  obtain ⟨r, -, h⟩ | ⟨f, -, -, h⟩ := endCandidate_cases raw s <;> rw [h]
  · exact ⟨rfl, rfl, rfl, rfl⟩
  · exact keptByReception_acceptFrame f s

theorem keptByReception_feedByte (s : State) (b : Byte) : s.KeptByReception (feedByte s b) := by
  obtain ⟨-, h⟩ | ⟨-, -, h⟩ | ⟨-, -, h⟩ | ⟨-, -, -, h⟩ | ⟨-, -, -, -, h⟩ | ⟨-, -, -, -, h⟩ := feedByte_cases s b <;> rw [h]
  case inr.inr.inl =>
    have htaken : s.KeptByReception (s.setRx [] false) := ⟨rfl, rfl, rfl, rfl⟩
    exact htaken.trans (keptByReception_endCandidate _ _)
  all_goals exact ⟨rfl, rfl, rfl, rfl⟩

theorem keptByReception_feedBytes (bs : Bytes) (s : State) : s.KeptByReception (feedBytes bs s) :=
  feedBytes_rel .refl (fun _ _ _ => .trans) keptByReception_feedByte bs s

/-- No instruction writes the configuration. -/
theorem exec_config {i : Instr} {s t : State} (h : exec i s = .next t) : t.config = s.config := by
  cases executed_of_exec h with
  | accepted f _ => exact (keptByReception_acceptFrame f s).config
  | fed bs => exact (keptByReception_feedBytes bs s).config
  | dropped | answered | sent | reset | polled | received => rfl

/-! ## The invariant -/

theorem withinCap_zero (cap : Option Nat) : withinCap cap 0 := fun c _ => Nat.zero_le c

/-- A queue within its capacity and not full has room for one more. -/
theorem withinCap_succ {cap : Option Nat} {n : Nat} (h : withinCap cap n) (hroom : atCap cap n = false) : withinCap cap (n + 1) := by
  rintro c rfl
  have hle : n ≤ c := h c rfl
  have hne : n ≠ c := by simpa using hroom
  omega

theorem withinCap_of_succ {cap : Option Nat} {n : Nat} (h : withinCap cap (n + 1)) : withinCap cap n :=
  fun c hc => Nat.le_of_succ_le (h c hc)

/-- The invariant reads five fields only. -/
theorem State.Inv.of_same {s t : State} (h : s.Inv) (hbuf : t.rxBuf = s.rxBuf) (hdisc : t.rxDiscarding = s.rxDiscarding)
    (htx : t.txQueue = s.txQueue) (hrx : t.rxFrames = s.rxFrames) (hcfg : t.config = s.config) : t.Inv := by
  obtain ⟨⟨hterm, hcap, hempty⟩, ⟨henc, htxcap⟩, ⟨hchk, hrxcap⟩, hfin⟩ := h
  refine ⟨⟨?_, ?_, ?_⟩, ⟨?_, ?_⟩, ⟨?_, ?_⟩, ?_⟩ <;>
    simpa only [State.DiscardingOnlyIfFinite, hbuf, hdisc, htx, hrx, hcfg]

theorem State.Inv.record {s : State} (h : s.Inv) (r : Result) : (s.record r).Inv := h.of_same rfl rfl rfl rfl rfl

theorem State.Inv.drop {s : State} (h : s.Inv) (r : DropReason) : (s.drop r).Inv := h.of_same rfl rfl rfl rfl rfl

/-- A frame the framer may send joins a `tx_queue` with room (rules R25, R26). -/
theorem State.Inv.txPush {s : State} (h : s.Inv) (hroom : txFull s = false) {f : AshFrame} (hf : SentByFramer f) :
    (s.txPush (encodeFrame f)).Inv := by
  obtain ⟨hrx, ⟨henc, hcap⟩, ⟨hchk, hrxcap⟩, hfin⟩ := h
  refine ⟨⟨hrx.1, hrx.2, hrx.3⟩, ⟨?_, ?_⟩, ⟨hchk, hrxcap⟩, hfin⟩
  · intro w hw
    obtain hold | rfl : w ∈ s.txQueue ∨ w = encodeFrame f := by simpa using hw
    · exact henc w hold
    · exact ⟨f, hf, rfl⟩
  · simpa using withinCap_succ hcap hroom

/-- A frame that passed the configuration checks joins an `rx_frames` with room (rule R27). -/
theorem State.Inv.rxFramePush {s : State} (h : s.Inv) (hroom : rxFramesFull s = false) {f : AshFrame}
    (hf : limitCheck s.config f = none) : (s.rxFramePush f).Inv := by
  obtain ⟨hrx, htx, ⟨hchk, hcap⟩, hfin⟩ := h
  refine ⟨⟨hrx.1, hrx.2, hrx.3⟩, ⟨htx.1, htx.2⟩, ⟨?_, ?_⟩, hfin⟩
  · intro g hg
    obtain hold | rfl : g ∈ s.rxFrames ∨ g = f := by simpa using hg
    · exact hchk g hold
    · exact hf
  · simpa using withinCap_succ hcap hroom

/-- A write of the scanner's two registers keeps the invariant if it meets rules R20 and R24. -/
theorem State.Inv.setRx {s : State} (h : s.Inv) {buf : Bytes} {d : Bool} (hterm : ∀ b ∈ buf, b ≠ flagByte ∧ b ≠ cancelByte)
    (hcap : withinCap s.config.rxBufCap buf.length) (hempty : d = true → buf = [])
    (hfin : d = true → s.config.rxBufCap ≠ none) : (s.setRx buf d).Inv :=
  ⟨⟨hterm, hcap, hempty⟩, ⟨h.tx.encoded, h.tx.withinQueue⟩, ⟨h.frames.checked, h.frames.withinQueue⟩, hfin⟩

theorem State.Inv.clearRx {s : State} (h : s.Inv) : (s.setRx [] false).Inv :=
  h.setRx (by simp) (withinCap_zero _) (by simp) (by simp)

/-- An overrun starts a discard only where the capacity is finite (rules R20, R103). -/
theorem State.Inv.overrun {s : State} (h : s.Inv) (hfull : rxBufFull s = true) : (s.setRx [] true).Inv := by
  refine h.setRx (by simp) (withinCap_zero _) (fun _ => rfl) fun _ hnone => ?_
  simp [rxBufFull, hnone] at hfull

/-- A byte that is no terminator joins an `rx_buf` with room (rule R103). -/
theorem State.Inv.rxBufPush {s : State} (h : s.Inv) (hroom : rxBufFull s = false) {b : Byte} (hc : b ≠ cancelByte)
    (hf : b ≠ flagByte) : (s.setRx (s.rxBuf ++ [b]) false).Inv := by
  refine h.setRx ?_ ?_ (by simp) (by simp)
  · intro x hx
    obtain hold | rfl : x ∈ s.rxBuf ∨ x = b := by simpa using hx
    · exact h.rx.noTerminator x hold
    · exact ⟨hf, hc⟩
  · simpa using withinCap_succ h.rx.withinBuffer hroom

/-- POLL_OUTGOING's removal of the head. -/
theorem State.Inv.txPop {s : State} (h : s.Inv) {w : Bytes} {rest : List Bytes} (hq : s.txQueue = w :: rest) :
    ({ s with txQueue := rest } : State).Inv := by
  obtain ⟨hrx, ⟨henc, hcap⟩, hfr, hfin⟩ := h
  rw [hq] at henc hcap
  exact ⟨⟨hrx.1, hrx.2, hrx.3⟩, ⟨fun x hx => henc x (.tail w hx), withinCap_of_succ hcap⟩, ⟨hfr.1, hfr.2⟩, hfin⟩

/-- RECV_FRAME's removal of the head. -/
theorem State.Inv.rxPop {s : State} (h : s.Inv) {f : AshFrame} {rest : List AshFrame} (hq : s.rxFrames = f :: rest) :
    ({ s with rxFrames := rest } : State).Inv := by
  obtain ⟨hrx, htx, ⟨hchk, hcap⟩, hfin⟩ := h
  rw [hq] at hchk hcap
  exact ⟨⟨hrx.1, hrx.2, hrx.3⟩, ⟨htx.1, htx.2⟩, ⟨fun x hx => hchk x (.tail f hx), withinCap_of_succ hcap⟩, hfin⟩

theorem State.Inv.deliver {s : State} (h : s.Inv) {f : AshFrame} (hf : limitCheck s.config f = none) :
    (Machine.deliver f s).Inv := by
  obtain ⟨-, he⟩ | ⟨hroom, he⟩ := deliver_cases f s <;> rw [he]
  · exact h.drop _
  · exact h.rxFramePush hroom hf

theorem State.Inv.autoAck {s : State} (h : s.Inv) : (Machine.autoAck s).Inv := by
  obtain ⟨-, he⟩ | ⟨hroom, he⟩ := autoAck_cases s <;> rw [he]
  · exact h.drop _
  · exact h.txPush hroom (.ack _)

theorem State.Inv.acceptFrame {s : State} (h : s.Inv) {f : AshFrame} (hf : limitCheck s.config f = none) :
    (Machine.acceptFrame f s).Inv := by
  obtain ⟨fn, an, re, p, -, he⟩ | ⟨-, he⟩ | ⟨-, -, he⟩ := acceptFrame_eq f s <;> rw [he]
  · have hack : (s.setAckNum (fn + 1)).Inv := h.of_same rfl rfl rfl rfl rfl
    exact hack.autoAck.deliver (by rwa [(keptByReception_autoAck _).config])
  · have hready : (s.setReady true).Inv := h.of_same rfl rfl rfl rfl rfl
    exact hready.deliver hf
  · exact h.deliver hf

theorem State.Inv.endCandidate {s : State} (h : s.Inv) (raw : Bytes) : (Machine.endCandidate raw s).Inv := by
  obtain ⟨r, -, he⟩ | ⟨f, -, hf, he⟩ := endCandidate_cases raw s <;> rw [he]
  · exact h.drop r
  · exact h.acceptFrame hf

theorem State.Inv.feedByte {s : State} (h : s.Inv) (b : Byte) : (Machine.feedByte s b).Inv := by
  obtain ⟨-, he⟩ | ⟨-, -, he⟩ | ⟨-, -, he⟩ | ⟨-, -, -, he⟩ | ⟨-, -, -, hfull, he⟩ | ⟨hc, hf, -, hroom, he⟩ :=
    feedByte_cases s b <;> rw [he]
  · exact h.clearRx.drop _
  · exact h.clearRx.drop _
  · exact h.clearRx.endCandidate _
  · exact h
  · exact h.overrun hfull
  · exact h.rxBufPush hroom hc hf

theorem State.Inv.feedBytes {s : State} (h : s.Inv) (bs : Bytes) : (Machine.feedBytes bs s).Inv :=
  feedBytes_induct (fun _ b hs => hs.feedByte b) bs s h

/-- Every instruction keeps the invariant. -/
theorem State.Inv.exec {s t : State} {i : Instr} (h : s.Inv) (he : Machine.exec i s = .next t) : t.Inv := by
  cases executed_of_exec he with
  | dropped f r _ => exact h.drop r
  | accepted f hf => exact h.acceptFrame hf
  | answered i r _ => exact h.record r
  | sent p hroom => exact (h.txPush hroom (.data s.txFrameNum s.ackNum p)).of_same rfl rfl rfl rfl rfl
  | reset hroom => exact (h.txPush hroom .reset).of_same rfl rfl rfl rfl rfl
  | fed bs => exact (h.feedBytes bs).record _
  | polled w rest hq => exact (h.txPop hq).record _
  | received f rest hq => exact (h.rxPop hq).record _

/-- The reset values meet the invariant under every configuration (rule R34). -/
theorem inv_resetWith (c : Config) : (State.resetWith c).Inv :=
  ⟨⟨by simp [State.resetWith], withinCap_zero _, fun _ => rfl⟩, ⟨by simp [State.resetWith], withinCap_zero _⟩,
    ⟨by simp [State.resetWith], withinCap_zero _⟩, by simp [State.DiscardingOnlyIfFinite, State.resetWith]⟩

theorem inv_hardwareReset (s : State) : (hardwareReset s).Inv := (inv_resetWith s.config).of_same rfl rfl rfl rfl rfl

/-- Settles O43: one rule per state operation, then the three things a step can do. -/
theorem stepKeepsInvariant : Obligations.StepKeepsInvariant := by
  intro s t h hstep
  obtain ⟨-, rfl⟩ | ⟨rest, -, rfl⟩ | ⟨code, operand, rest, i, -, -, he⟩ := step_next_cases hstep
  · exact h
  · exact inv_hardwareReset _
  · have hcalled : (s.setPending rest).Inv := h.of_same rfl rfl rfl rfl rfl
    exact hcalled.exec he

/-- Settles O44: nothing is held, so every clause is about an empty list, a count of 0 or a cleared flag. -/
theorem resetMeetsInvariant : Obligations.ResetMeetsInvariant := inv_resetWith

/-- Settles O41: each field of `State.resetWith` and of `Config.default` as it is written. -/
theorem resetValues : Obligations.ResetValues := by
  refine ⟨fun c => ?_, rfl, rfl⟩
  exact ⟨rfl, rfl, rfl, rfl, rfl, rfl, rfl, rfl, by simp [statusByte, State.resetWith]⟩

/-! ## Who writes which register -/

/-- Settles O45: reception keeps the configuration, and no other write touches it. -/
theorem configurationIsNeverWritten : Obligations.ConfigurationIsNeverWritten := by
  intro s t hstep
  obtain ⟨-, rfl⟩ | ⟨rest, -, rfl⟩ | ⟨code, operand, rest, i, -, -, he⟩ := step_next_cases hstep
  · rfl
  · rfl
  · exact (exec_config he).trans (State.setPending_config s rest)

/-- Addition on 3-bit numbers as the statements write it (rule R80). -/
theorem num3_add_one (n : Num3) : n + 1 = BitVec.ofNat 3 ((n.toNat + 1) % 8) := by
  apply BitVec.eq_of_toNat_eq
  simp [BitVec.toNat_add]

/-- Settles O46: of all branches only a SEND_DATA with no refusal writes `tx_frame_num`. -/
theorem frameCounterWrittenOnlyBySendData : Obligations.FrameCounterWrittenOnlyBySendData := by
  refine ⟨fun i s t h hne => ?_, fun s => rfl⟩
  cases executed_of_exec h with
  | accepted f _ => exact absurd (keptByReception_acceptFrame f s).txFrameNum hne
  | fed bs => exact absurd (keptByReception_feedBytes bs s).txFrameNum hne
  | sent p _ => exact ⟨p, rfl, num3_add_one _, rfl, rfl⟩
  | dropped | answered | reset | polled | received => exact absurd rfl hne

@[simp] theorem deliver_ackNum (f : AshFrame) (s : State) : (deliver f s).ackNum = s.ackNum := by
  obtain ⟨-, h⟩ | ⟨-, h⟩ := deliver_cases f s <;> rw [h] <;> rfl

@[simp] theorem deliver_ready (f : AshFrame) (s : State) : (deliver f s).ready = s.ready := by
  obtain ⟨-, h⟩ | ⟨-, h⟩ := deliver_cases f s <;> rw [h] <;> rfl

@[simp] theorem autoAck_ackNum (s : State) : (autoAck s).ackNum = s.ackNum := by
  obtain ⟨-, h⟩ | ⟨-, h⟩ := autoAck_cases s <;> rw [h] <;> rfl

@[simp] theorem autoAck_ready (s : State) : (autoAck s).ready = s.ready := by
  obtain ⟨-, h⟩ | ⟨-, h⟩ := autoAck_cases s <;> rw [h] <;> rfl

/-- Only an accepted DATA frame writes `ack_num` (rule R104). -/
theorem data_of_acceptFrame_ackNum_ne {f : AshFrame} {s : State} (h : (acceptFrame f s).ackNum ≠ s.ackNum) :
    ∃ fn an re p, f = .data fn an re p ∧ (acceptFrame f s).ackNum = BitVec.ofNat 3 ((fn.toNat + 1) % 8) := by
  obtain ⟨fn, an, re, p, hf, he⟩ | ⟨-, he⟩ | ⟨-, -, he⟩ := acceptFrame_eq f s
  · exact ⟨fn, an, re, p, hf, by simpa [he] using num3_add_one fn⟩
  · simp [he] at h
  · simp [he] at h

/-- Only an accepted ResetAck writes `ready` (rule R104). -/
theorem resetAck_of_acceptFrame_ready_ne {f : AshFrame} {s : State} (h : (acceptFrame f s).ready ≠ s.ready) :
    f = .resetAck ∧ (acceptFrame f s).ready = true := by
  obtain ⟨fn, an, re, p, -, he⟩ | ⟨hf, he⟩ | ⟨-, -, he⟩ := acceptFrame_eq f s
  · simp [he] at h
  · exact ⟨hf, by simp [he]⟩
  · simp [he] at h

section Accepted

variable {α : Type} {g : State → α} (hdrop : ∀ s r, g (s.drop r) = g s) (hrx : ∀ s buf d, g (s.setRx buf d) = g s)
include hdrop hrx

/-- A field that neither a drop nor the scanner writes is changed by a byte only through the frame whose candidate it ends. -/
theorem accepts_of_feedByte_ne {s : State} {b : Byte} (h : g (feedByte s b) ≠ g s) :
    b = flagByte ∧ s.rxDiscarding = false ∧
      ∃ f, decodeCandidate s.config s.rxBuf = .accept f ∧ feedByte s b = acceptFrame f (s.setRx [] false) := by
  obtain ⟨-, he⟩ | ⟨-, -, he⟩ | ⟨hb, hd, he⟩ | ⟨-, -, -, he⟩ | ⟨-, -, -, -, he⟩ | ⟨-, -, -, -, he⟩ := feedByte_cases s b
  case inr.inr.inl =>
    obtain ⟨r, -, hend⟩ | ⟨f, hf, -, hend⟩ := endCandidate_cases s.rxBuf (s.setRx [] false)
    · simp [he, hend, hdrop, hrx] at h
    · exact ⟨hb, hd, f, hf, he.trans hend⟩
  all_goals simp [he, hdrop, hrx] at h

/-- So a FEED changes it only through a frame accepted on the way; the value it ends with is the one the last such frame gave. -/
theorem accepts_of_feedBytes_ne {s : State} (bs : Bytes) (h : g (feedBytes bs s) ≠ g s) :
    ∃ f u, AcceptedWhileFeeding s bs f ∧ g (acceptFrame f u) ≠ g u ∧ g (feedBytes bs s) = g (acceptFrame f u) := by
  induction bs using List.reverseRecOn with
  | nil => exact absurd rfl h
  | append_singleton bs b ih =>
    have hlast : feedBytes (bs ++ [b]) s = feedByte (feedBytes bs s) b := feedBytes_append bs [b] s
    rw [hlast] at h ⊢
    by_cases hb : g (feedByte (feedBytes bs s) b) = g (feedBytes bs s)
    · obtain ⟨f, u, ⟨pre, post, rfl, hd, hf⟩, hne, heq⟩ := ih (hb ▸ h)
      exact ⟨f, u, ⟨pre, post ++ [b], by simp, hd, hf⟩, hne, hb.trans heq⟩
    · obtain ⟨rfl, hd, f, hf, he⟩ := accepts_of_feedByte_ne hdrop hrx hb
      rw [(keptByReception_feedBytes bs s).config] at hf
      rw [he] at hb ⊢
      exact ⟨f, _, ⟨bs, [], rfl, hd, hf⟩, by rwa [hrx], rfl⟩

end Accepted

/-- Settles O47: a change of `ack_num` is traced to the accepted frame that made it, which is a DATA frame. -/
theorem ackNumWrittenOnlyByAcceptedData : Obligations.AckNumWrittenOnlyByAcceptedData := by
  refine ⟨fun s b hne => ?_, fun i s t h hne => ?_⟩
  · obtain ⟨hb, hd, f, hf, he⟩ := accepts_of_feedByte_ne State.drop_ackNum State.setRx_ackNum hne
    rw [he] at hne ⊢
    obtain ⟨fn, an, re, p, rfl, hnum⟩ := data_of_acceptFrame_ackNum_ne hne
    exact ⟨hb, hd, fn, an, re, p, hf, hnum⟩
  · cases executed_of_exec h with
    | accepted f _ =>
      obtain ⟨fn, an, re, p, rfl, hnum⟩ := data_of_acceptFrame_ackNum_ne hne
      exact ⟨fn, an, re, p, hnum, .inl rfl⟩
    | fed bs =>
      obtain ⟨f, u, hacc, hu, heq⟩ := accepts_of_feedBytes_ne State.drop_ackNum State.setRx_ackNum bs hne
      obtain ⟨fn, an, re, p, rfl, hnum⟩ := data_of_acceptFrame_ackNum_ne hu
      exact ⟨fn, an, re, p, heq.trans hnum, .inr ⟨bs, rfl, hacc⟩⟩
    | dropped | answered | sent | reset | polled | received => exact absurd rfl hne

/-- Settles O48: a change of `ready` is RESET's, or is traced to the accepted frame that made it, which is a ResetAck. -/
theorem readyWrittenOnlyByResetAndResetAck : Obligations.ReadyWrittenOnlyByResetAndResetAck := by
  refine ⟨fun s b hne => ?_, fun i s t h hne => ?_, fun s => rfl⟩
  · obtain ⟨hb, hd, f, hf, he⟩ := accepts_of_feedByte_ne State.drop_ready State.setRx_ready hne
    rw [he] at hne ⊢
    obtain ⟨rfl, hready⟩ := resetAck_of_acceptFrame_ready_ne hne
    exact ⟨hb, hd, hf, hready⟩
  · cases executed_of_exec h with
    | accepted f _ =>
      obtain ⟨rfl, hready⟩ := resetAck_of_acceptFrame_ready_ne hne
      exact .inr ⟨hready, .inl rfl⟩
    | reset _ => exact .inl ⟨rfl, rfl⟩
    | fed bs =>
      obtain ⟨f, u, hacc, hu, heq⟩ := accepts_of_feedBytes_ne State.drop_ready State.setRx_ready bs hne
      obtain ⟨rfl, hready⟩ := resetAck_of_acceptFrame_ready_ne hu
      exact .inr ⟨heq.trans hready, .inr ⟨bs, rfl, hacc⟩⟩
    | dropped | answered | sent | polled | received => exact absurd rfl hne

/-! ## The ghost log and the results are never read -/

/-- The state with another drop log and other results. -/
def State.withGhosts (s : State) (log : List DropReason) (rs : List Result) : State := { s with dropLog := log, results := rs }

/-- A view of the state that does not read the two ghost fields. -/
def GhostFree {α : Type} (g : State → α) : Prop := ∀ s log rs, g (s.withGhosts log rs) = g s

/-- From `s` the update `F` does not depend on the two ghost fields, and only appends to them. -/
def GhostBlindAt (F : State → State) (s : State) : Prop :=
  ∃ (drops : List DropReason) (outs : List Result), (F s).dropLog = s.dropLog ++ drops ∧ (F s).results = s.results ++ outs ∧
    ∀ log rs, F (s.withGhosts log rs) = (F s).withGhosts (log ++ drops) (rs ++ outs)

/-- The same from every state. -/
def GhostBlind (F : State → State) : Prop := ∀ s, GhostBlindAt F s

/-- An update that commutes with the replacement of the two fields neither reads nor writes them. -/
theorem ghostBlind_of_commutes {F : State → State} (hcomm : ∀ s log rs, F (s.withGhosts log rs) = (F s).withGhosts log rs) :
    GhostBlind F := by
  intro s
  have hs : F s = (F s).withGhosts s.dropLog s.results := hcomm s s.dropLog s.results
  refine ⟨[], [], ?_, ?_, fun log rs => by simp [hcomm]⟩ <;> rw [hs, List.append_nil] <;> rfl

theorem ghostBlind_record (r : Result) : GhostBlind (·.record r) :=
  fun s => ⟨[], [r], by simp, rfl, fun log rs => by simp [State.withGhosts, State.record]⟩

theorem ghostBlind_drop (r : DropReason) : GhostBlind (·.drop r) :=
  fun s => ⟨[r], [], rfl, by simp, fun log rs => by simp [State.withGhosts, State.drop]⟩

theorem ghostBlind_setRx (buf : Bytes) (d : Bool) : GhostBlind (·.setRx buf d) :=
  ghostBlind_of_commutes fun _ _ _ => rfl

theorem ghostBlind_txPush (w : Bytes) : GhostBlind (·.txPush w) :=
  ghostBlind_of_commutes fun _ _ _ => rfl

theorem ghostBlind_rxFramePush (f : AshFrame) : GhostBlind (·.rxFramePush f) :=
  ghostBlind_of_commutes fun _ _ _ => rfl

theorem ghostBlind_setAckNum (n : Num3) : GhostBlind (·.setAckNum n) :=
  ghostBlind_of_commutes fun _ _ _ => rfl

theorem ghostBlind_setReady (b : Bool) : GhostBlind (·.setReady b) :=
  ghostBlind_of_commutes fun _ _ _ => rfl

theorem GhostBlind.comp {F G : State → State} (hG : GhostBlind G) (hF : GhostBlind F) : GhostBlind fun s => G (F s) := by
  intro s
  obtain ⟨drops, outs, hlog, hres, hcomm⟩ := hF s
  obtain ⟨drops', outs', hlog', hres', hcomm'⟩ := hG (F s)
  exact ⟨drops ++ drops', outs ++ outs', by simp [hlog, hlog'], by simp [hres, hres'], by simp [hcomm, hcomm']⟩

/-- An update that, whatever the two fields hold, takes from `s` the branch `F`. -/
theorem GhostBlind.branch {F G : State → State} {s : State} (hF : GhostBlind F)
    (h : ∀ log rs, G (s.withGhosts log rs) = F (s.withGhosts log rs)) : GhostBlindAt G s := by
  obtain ⟨drops, outs, hlog, hres, hcomm⟩ := hF s
  have hs : G s = F s := h s.dropLog s.results
  exact ⟨drops, outs, hs ▸ hlog, hs ▸ hres, fun log rs => by rw [h, hs, hcomm]⟩

/-- An update with an argument taken from the state by a view that does not read the two fields. -/
theorem GhostBlind.select {α : Type} {F : α → State → State} {g : State → α} (hg : GhostFree g) (hF : ∀ a, GhostBlind (F a)) :
    GhostBlind fun s => F (g s) s :=
  fun s => (hF (g s)).branch fun log rs => by rw [hg]

theorem GhostBlind.ite {c : State → Bool} {F G : State → State} (hc : GhostFree c) (hF : GhostBlind F) (hG : GhostBlind G) :
    GhostBlind fun s => if c s then F s else G s := by
  intro s
  cases h : c s with
  | true => exact hF.branch fun log rs => by rw [hc, h, if_pos rfl]
  | false => exact hG.branch fun log rs => by rw [hc, h, if_neg Bool.false_ne_true]

theorem ghostBlind_deliver (f : AshFrame) : GhostBlind (deliver f) :=
  .ite (c := rxFramesFull) (fun _ _ _ => rfl) (ghostBlind_drop _) (ghostBlind_rxFramePush f)

theorem ghostBlind_autoAck : GhostBlind autoAck :=
  .ite (c := txFull) (fun _ _ _ => rfl) (ghostBlind_drop _)
    (.select (g := State.ackNum) (fun _ _ _ => rfl) fun n => ghostBlind_txPush (encodeFrame (.ack n)))

theorem ghostBlind_acceptFrame (f : AshFrame) : GhostBlind (acceptFrame f) := by
  cases f with
  | data fn an re p => exact (ghostBlind_deliver _).comp (ghostBlind_autoAck.comp (ghostBlind_setAckNum _))
  | resetAck => exact (ghostBlind_deliver _).comp (ghostBlind_setReady true)
  | ack | nak | reset | error => exact ghostBlind_deliver _

theorem ghostBlind_endCandidate (raw : Bytes) : GhostBlind (endCandidate raw) := by
  intro s
  cases h : decodeCandidate s.config raw with
  | drop r => exact (ghostBlind_drop r).branch fun log rs => by simp [endCandidate, State.withGhosts, h]
  | accept f => exact (ghostBlind_acceptFrame f).branch fun log rs => by simp [endCandidate, State.withGhosts, h]

theorem ghostBlind_feedCancel : GhostBlind feedCancel := (ghostBlind_drop _).comp (ghostBlind_setRx _ _)

theorem ghostBlind_feedFlag : GhostBlind feedFlag :=
  .ite (c := State.rxDiscarding) (fun _ _ _ => rfl) ((ghostBlind_drop _).comp (ghostBlind_setRx _ _))
    (.select (g := State.rxBuf) (fun _ _ _ => rfl) fun raw => (ghostBlind_endCandidate raw).comp (ghostBlind_setRx _ _))

theorem ghostBlind_feedOther (b : Byte) : GhostBlind (feedOther b) :=
  .ite (c := State.rxDiscarding) (fun _ _ _ => rfl) (ghostBlind_of_commutes fun _ _ _ => rfl)
    (.ite (c := rxBufFull) (fun _ _ _ => rfl) (ghostBlind_setRx _ _)
      (ghostBlind_of_commutes fun _ _ _ => rfl))

theorem ghostBlind_feedByte (b : Byte) : GhostBlind (feedByte · b) := by
  by_cases hc : b = cancelByte
  · simpa only [feedByte, if_pos hc] using ghostBlind_feedCancel
  · by_cases hf : b = flagByte
    · simpa only [feedByte, if_neg hc, if_pos hf] using ghostBlind_feedFlag
    · simpa only [feedByte, if_neg hc, if_neg hf] using ghostBlind_feedOther b

theorem ghostBlind_feedBytes (bs : Bytes) : GhostBlind (feedBytes bs) := by
  induction bs with
  | nil => exact ghostBlind_of_commutes fun _ _ _ => rfl
  | cons b bs ih => exact ih.comp (ghostBlind_feedByte b)

/-- SEND_DATA's effect with the two numbers it reads as arguments (rule R97). -/
def queueData (p : Bytes) (fn an : Num3) (s : State) : State :=
  ({ s.txPush (encodeFrame (.data fn an false p)) with txFrameNum := fn + 1 } : State).record (.sent fn)

theorem ghostBlind_queueData (p : Bytes) (fn an : Num3) : GhostBlind (queueData p fn an) :=
  (ghostBlind_record (.sent fn)).comp (ghostBlind_of_commutes fun _ _ _ => rfl)

theorem execSendData_eq (p : Bytes) (s : State) : execSendData p s = .next (
    if s.config.gateSendOnReady && !s.ready then s.record (.status .linkNotReady)
    else if overMax s.config.maxPayload p.length then s.record (.status .payloadTooLong)
    else if txFull s then s.record (.status .txFull)
    else queueData p s.txFrameNum s.ackNum s) := rfl

theorem execSendData_ghostBlind (p : Bytes) : ∃ F, (∀ s, execSendData p s = .next (F s)) ∧ GhostBlind F := by
  have hsent : GhostBlind fun s => queueData p s.txFrameNum s.ackNum s :=
    .select (g := fun s => (s.txFrameNum, s.ackNum)) (F := fun v : Num3 × Num3 => queueData p v.1 v.2) (fun _ _ _ => rfl)
      fun v => ghostBlind_queueData p v.1 v.2
  exact ⟨_, execSendData_eq p,
    .ite (c := fun s => s.config.gateSendOnReady && !s.ready) (fun _ _ _ => rfl) (ghostBlind_record _)
      (.ite (c := fun s => overMax s.config.maxPayload p.length) (fun _ _ _ => rfl) (ghostBlind_record _)
        (.ite (c := txFull) (fun _ _ _ => rfl) (ghostBlind_record _) hsent))⟩

theorem execPollOutgoing_ghostBlind : ∃ F, (∀ s, execPollOutgoing s = .next (F s)) ∧ GhostBlind F := by
  refine ⟨_, fun _ => rfl, fun s => ?_⟩
  cases hq : s.txQueue with
  | nil => exact (ghostBlind_record (.polled none)).branch fun log rs => by simp [State.withGhosts, hq]
  | cons w rest =>
    have hpop : GhostBlind fun s => { s with txQueue := rest } := ghostBlind_of_commutes fun _ _ _ => rfl
    exact ((ghostBlind_record (.polled (some w))).comp hpop).branch fun log rs => by simp [State.withGhosts, hq]

theorem execRecvFrame_ghostBlind : ∃ F, (∀ s, execRecvFrame s = .next (F s)) ∧ GhostBlind F := by
  refine ⟨_, fun _ => rfl, fun s => ?_⟩
  cases hq : s.rxFrames with
  | nil => exact (ghostBlind_record (.received none)).branch fun log rs => by simp [State.withGhosts, hq]
  | cons f rest =>
    have hpop : GhostBlind fun s => { s with rxFrames := rest } := ghostBlind_of_commutes fun _ _ _ => rfl
    exact ((ghostBlind_record (.received (some f))).comp hpop).branch fun log rs => by simp [State.withGhosts, hq]

/-- Every instruction answers by such an update. -/
theorem exec_ghostBlind (i : Instr) : ∃ F, (∀ s, exec i s = .next (F s)) ∧ GhostBlind F := by
  cases i with
  | data fn an re p =>
    exact ⟨_, fun _ => rfl, .ite (c := fun s => overMax s.config.maxPayload p.length) (fun _ _ _ => rfl) (ghostBlind_drop _)
      (ghostBlind_acceptFrame (.data fn an re p))⟩
  | ack n => exact ⟨_, fun _ => rfl, ghostBlind_acceptFrame (.ack n)⟩
  | nak n => exact ⟨_, fun _ => rfl, ghostBlind_acceptFrame (.nak n)⟩
  | rst => exact ⟨_, fun _ => rfl, ghostBlind_acceptFrame .reset⟩
  | rstack => exact ⟨_, fun _ => rfl, ghostBlind_acceptFrame .resetAck⟩
  | error v k =>
    exact ⟨_, fun _ => rfl, .ite (c := fun s => errorCodeKnown s.config k) (fun _ _ _ => rfl)
      (ghostBlind_acceptFrame (.error v k)) (ghostBlind_drop _)⟩
  | sendData p => exact execSendData_ghostBlind p
  | reset =>
    exact ⟨_, fun _ => rfl, .ite (c := txFull) (fun _ _ _ => rfl) (ghostBlind_record _)
      ((ghostBlind_record _).comp ((ghostBlind_setReady false).comp (ghostBlind_txPush _)))⟩
  | feed bs => exact ⟨_, fun _ => rfl, (ghostBlind_record _).comp (ghostBlind_feedBytes bs)⟩
  | pollOutgoing => exact execPollOutgoing_ghostBlind
  | recvFrame => exact execRecvFrame_ghostBlind
  | readStatus =>
    exact ⟨_, fun _ => rfl, .select (g := fun s => Result.statusRead (statusByte s) (txPending s) (rxPending s) (rxPartial s))
      (fun _ _ _ => rfl) ghostBlind_record⟩

/-- Settles O50: every update an instruction is made of only appends to the two fields and reads neither. -/
theorem ghostLogAndResultsAreNeverRead : Obligations.GhostLogAndResultsAreNeverRead := by
  intro i s t h
  obtain ⟨F, hF, hblind⟩ := exec_ghostBlind i
  obtain rfl : F s = t := by simpa [hF] using h
  obtain ⟨drops, outs, hlog, hres, hcomm⟩ := hblind s
  exact ⟨drops, outs, hlog, hres, fun log rs => (hF _).trans (congrArg _ (hcomm log rs))⟩

end Sys2Proof.Machine
end

section
/-! Proofs of the statements about the queues, the calls and the ack number (20_memory.md): what every update of reception keeps,
then the two queues' order, and what a SEND_DATA queues behind the automatic ACK. -/

namespace Sys2Proof.Machine

open Sys2Proof Sys2Proof.Reading

/-! ## A relation that every update of reception keeps -/

/-- A reflexive and transitive relation of the state before and the state after that each update made by reception meets: a drop,
the automatic ACK, a delivery, and the writes of `ack_num`, `ready` and the scanner's registers. -/
structure ReceptionRel (R : State → State → Prop) : Prop where
  refl : ∀ s, R s s
  trans : ∀ s t u, R s t → R t u → R s u
  drop : ∀ s r, R s (s.drop r)
  ackPush : ∀ s n, R s (s.txPush (encodeFrame (.ack n)))
  rxFramePush : ∀ s f, R s (s.rxFramePush f)
  setAckNum : ∀ s n, R s (s.setAckNum n)
  setReady : ∀ s b, R s (s.setReady b)
  setRx : ∀ s buf d, R s (s.setRx buf d)

section Reception

variable {R : State → State → Prop} (hR : ReceptionRel R)
include hR

theorem ReceptionRel.deliver (f : AshFrame) (s : State) : R s (Machine.deliver f s) := by
  obtain ⟨-, h⟩ | ⟨-, h⟩ := deliver_cases f s <;> rw [h]
  · exact hR.drop s _
  · exact hR.rxFramePush s f

theorem ReceptionRel.autoAck (s : State) : R s (Machine.autoAck s) := by
  obtain ⟨-, h⟩ | ⟨-, h⟩ := autoAck_cases s <;> rw [h]
  · exact hR.drop s _
  · exact hR.ackPush s _

theorem ReceptionRel.acceptFrame (f : AshFrame) (s : State) : R s (Machine.acceptFrame f s) := by
  obtain ⟨fn, an, re, p, -, h⟩ | ⟨-, h⟩ | ⟨-, -, h⟩ := acceptFrame_eq f s <;> rw [h]
  · exact hR.trans _ _ _ (hR.setAckNum s _) (hR.trans _ _ _ (hR.autoAck _) (hR.deliver f _))
  · exact hR.trans _ _ _ (hR.setReady s true) (hR.deliver f _)
  · exact hR.deliver f s

theorem ReceptionRel.endCandidate (raw : Bytes) (s : State) : R s (Machine.endCandidate raw s) := by
  obtain ⟨r, -, h⟩ | ⟨f, -, -, h⟩ := endCandidate_cases raw s <;> rw [h]
  · exact hR.drop s r
  · exact hR.acceptFrame f s

theorem ReceptionRel.feedByte (s : State) (b : Byte) : R s (Machine.feedByte s b) := by
  obtain ⟨-, h⟩ | ⟨-, -, h⟩ | ⟨-, -, h⟩ | ⟨-, -, -, h⟩ | ⟨-, -, -, -, h⟩ | ⟨-, -, -, -, h⟩ := feedByte_cases s b <;> rw [h]
  · exact hR.trans _ _ _ (hR.setRx s _ _) (hR.drop _ _)
  · exact hR.trans _ _ _ (hR.setRx s _ _) (hR.drop _ _)
  · exact hR.trans _ _ _ (hR.setRx s _ _) (hR.endCandidate _ _)
  · exact hR.refl s
  · exact hR.setRx s _ _
  · exact hR.setRx s _ _

theorem ReceptionRel.feedBytes (bs : Bytes) (s : State) : R s (Machine.feedBytes bs s) :=
  feedBytes_rel hR.refl hR.trans hR.feedByte bs s

end Reception

/-! ## Both queues are first in, first out -/

/-- Neither queue has lost or reordered an entry: what is new stands at the tail. -/
structure State.QueuesGrow (s t : State) : Prop where
  tx : s.txQueue <+: t.txQueue
  rx : s.rxFrames <+: t.rxFrames

/-- An update that writes neither queue. -/
theorem State.QueuesGrow.of_same {s t : State} (htx : t.txQueue = s.txQueue) (hrx : t.rxFrames = s.rxFrames) : s.QueuesGrow t :=
  ⟨⟨[], by simp [htx]⟩, ⟨[], by simp [hrx]⟩⟩

theorem State.queuesGrow_txPush (s : State) (w : Bytes) : s.QueuesGrow (s.txPush w) := ⟨⟨_, rfl⟩, ⟨[], by simp⟩⟩

theorem receptionRel_queuesGrow : ReceptionRel State.QueuesGrow where
  refl _ := .of_same rfl rfl
  trans _ _ _ h h' := ⟨h.tx.trans h'.tx, h.rx.trans h'.rx⟩
  drop _ _ := .of_same rfl rfl
  ackPush s _ := s.queuesGrow_txPush _
  rxFramePush _ _ := ⟨⟨[], by simp⟩, ⟨_, rfl⟩⟩
  setAckNum _ _ := .of_same rfl rfl
  setReady _ _ := .of_same rfl rfl
  setRx _ _ _ := .of_same rfl rfl

/-- Only the two operations that return a head take one off; all else lets both queues grow. -/
theorem Executed.queuesGrow_or_pop {s t : State} {i : Instr} (h : Executed s i t) :
    s.QueuesGrow t ∨
    (∃ w rest, i = .pollOutgoing ∧ s.txQueue = w :: rest ∧ t = ({ s with txQueue := rest } : State).record (.polled (some w))) ∨
    (∃ f rest, i = .recvFrame ∧ s.rxFrames = f :: rest ∧
      t = ({ s with rxFrames := rest } : State).record (.received (some f))) := by
  cases h with
  | dropped | answered => exact .inl (.of_same rfl rfl)
  | accepted f _ => exact .inl (receptionRel_queuesGrow.acceptFrame f s)
  | sent | reset =>
    obtain ⟨htx, hrx⟩ := s.queuesGrow_txPush _
    exact .inl ⟨htx, hrx⟩
  | fed bs =>
    obtain ⟨htx, hrx⟩ := receptionRel_queuesGrow.feedBytes bs s
    exact .inl ⟨htx, hrx⟩
  | polled w rest hq => exact .inr (.inl ⟨w, rest, rfl, hq, rfl⟩)
  | received f rest hq => exact .inr (.inr ⟨f, rest, rfl, hq, rfl⟩)

/-- Settles O49: reception and the sends only push at the tails; POLL_OUTGOING and RECV_FRAME return the head they take. -/
theorem queuesAreFifo : Obligations.QueuesAreFifo := by
  intro i s t h
  obtain ⟨htx, hrx⟩ | ⟨w, rest, rfl, hq, rfl⟩ | ⟨f, rest, rfl, hq, rfl⟩ := (executed_of_exec h).queuesGrow_or_pop
  · exact ⟨.inl (htx.imp fun _ => Eq.symm), .inl (hrx.imp fun _ => Eq.symm)⟩
  · exact ⟨.inr ⟨rfl, w, hq, rfl⟩, .inl ⟨[], by simp⟩⟩
  · exact ⟨.inl ⟨[], by simp⟩, .inr ⟨rfl, f, hq, rfl⟩⟩

/-! ## A send after a received DATA frame -/

theorem atCap_eq_false_iff {cap : Option Nat} {n : Nat} : atCap cap n = false ↔ cap ≠ some n := by
  cases cap with
  | none => simp
  | some c => simp [eq_comm (a := n)]

/-- The statements' length test is the model's. -/
theorem exceeds_eq_overMax (max : Option Nat) (n : Nat) : exceeds max n = overMax max n := by cases max <;> rfl

/-- SEND_DATA with no refusal (rule R97). -/
theorem exec_sendData_of_admitted {p : Bytes} {s : State} (hgate : s.config.gateSendOnReady = false ∨ s.ready = true)
    (hlen : overMax s.config.maxPayload p.length = false) (hroom : txFull s = false) :
    exec (.sendData p) s = .next (queueData p s.txFrameNum s.ackNum s) := by
  have hgated : (s.config.gateSendOnReady && !s.ready) = false := by
    obtain h | h := hgate <;> simp [h]
  simp [exec, execSendData_eq, hgated, hlen, hroom]

@[simp] theorem queueData_txQueue (p : Bytes) (fn an : Num3) (s : State) :
    (queueData p fn an s).txQueue = s.txQueue ++ [encodeFrame (.data fn an false p)] := rfl

/-- `t` is what the reception of DATA frame `fn`, its automatic ACK not lost, leaves of `s` for a SEND_DATA to read. -/
structure State.DataAcknowledged (s : State) (fn : Num3) (t : State) : Prop where
  config : t.config = s.config
  ready : t.ready = s.ready
  txFrameNum : t.txFrameNum = s.txFrameNum
  ackNum : t.ackNum = fn + 1
  txQueue : t.txQueue = s.txQueue ++ [encodeFrame (.ack (fn + 1))]

@[simp] theorem deliver_txQueue (f : AshFrame) (s : State) : (deliver f s).txQueue = s.txQueue := by
  obtain ⟨-, h⟩ | ⟨-, h⟩ := deliver_cases f s <;> rw [h] <;> rfl

theorem autoAck_txQueue_of_room {s : State} (hroom : txFull s = false) :
    (autoAck s).txQueue = s.txQueue ++ [encodeFrame (.ack s.ackNum)] := by
  simp [autoAck, hroom]

/-- AcceptFrame writes the new `ack_num` before the ACK that carries it is queued (rules R104, R106). -/
theorem dataAcknowledged_acceptData {s : State} (hroom : txFull s = false) (fn an : Num3) (re : Bool) (p : Bytes) :
    s.DataAcknowledged fn (acceptData fn an re p s) := by
  have hkept := keptByReception_acceptFrame (.data fn an re p) s
  have hqueue : (acceptData fn an re p s).txQueue = s.txQueue ++ [encodeFrame (.ack (fn + 1))] :=
    (deliver_txQueue _ _).trans (autoAck_txQueue_of_room (s := s.setAckNum (fn + 1)) hroom)
  exact ⟨hkept.config, by simp [acceptData], hkept.txFrameNum, by simp [acceptData], hqueue⟩

/-- The send that follows reads the new `ack_num` and queues behind the ACK. -/
theorem State.DataAcknowledged.exec_sendData {s t : State} {fn : Num3} (h : s.DataAcknowledged fn t) {q : Bytes}
    (hgate : s.config.gateSendOnReady = false ∨ s.ready = true) (hlen : overMax s.config.maxPayload q.length = false)
    (hroom : atCap s.config.txQueueCap (s.txQueue.length + 1) = false) :
    ∃ u, exec (.sendData q) t = .next u ∧
      u.txQueue = s.txQueue ++ [encodeFrame (.ack (fn + 1)), encodeFrame (.data s.txFrameNum (fn + 1) false q)] := by
  have hroom' : txFull t = false := by simpa [txFull, h.config, h.txQueue] using hroom
  rw [← h.config] at hgate hlen
  rw [← h.ready] at hgate
  exact ⟨_, exec_sendData_of_admitted hgate hlen hroom', by simp [h.txQueue, h.txFrameNum, h.ackNum]⟩

/-- The FEED of a flag that ends, while nothing is discarded, a candidate that decodes (rules R100, R102). -/
theorem exec_feed_flag_of_accept {s : State} {f : AshFrame} (hd : s.rxDiscarding = false)
    (hf : decodeCandidate s.config s.rxBuf = .accept f) :
    exec (.feed [flagByte]) s = .next ((acceptFrame f (s.setRx [] false)).record (.consumed 1)) := by
  have hbyte : feedByte s flagByte = acceptFrame f (s.setRx [] false) := by
    have hne : flagByte ≠ cancelByte := by decide
    simp [feedByte, hne, feedFlag, hd, endCandidate, hf]
  simp [exec, execFeed, hbyte]

/-- Settles O35: either reception leaves the new `ack_num` and the ACK queued, and the send reads the one and follows the other. -/
theorem sendAfterDataCarriesNewAck : Obligations.SendAfterDataCarriesNewAck := by
  intro s fn an re p q hgate hroom hroom' hq queued
  rw [exceeds_eq_overMax] at hq
  rw [← atCap_eq_false_iff] at hroom hroom'
  refine ⟨fun hd hf => ?_, fun hp => ?_⟩
  · obtain ⟨hcfg, hready, hnum, hack, htx⟩ := dataAcknowledged_acceptData (s := s.setRx [] false) hroom fn an re p
    have hacked : s.DataAcknowledged fn ((acceptData fn an re p (s.setRx [] false)).record (.consumed 1)) :=
      ⟨hcfg, hready, hnum, hack, htx⟩
    obtain ⟨u, hu, hqueue⟩ := hacked.exec_sendData hgate hq hroom'
    exact ⟨_, u, exec_feed_flag_of_accept hd hf, hu, hqueue⟩
  · rw [exceeds_eq_overMax] at hp
    obtain ⟨u, hu, hqueue⟩ := (dataAcknowledged_acceptData hroom fn an re p).exec_sendData hgate hq hroom'
    exact ⟨_, u, by simp [exec, execData, hp], hu, hqueue⟩

/-! ## Steps and instructions -/

/-- Settles O36: `fetch` hands over the decoded operation and the state without the call. -/
theorem stepRunsDecodedOperation : Obligations.StepRunsDecodedOperation := by
  intro s code operand rest i hp hd
  simp only [step, fetch_run hp hd]
  rfl

/-- Settles O39: the meaning of each of the twelve instructions is `.next` of a state, with every branch under it. -/
theorem everyInstructionCompletes : Obligations.EveryInstructionCompletes := by
  intro i s
  cases i <;> exact ⟨_, rfl⟩

end Sys2Proof.Machine
end

section
/-! Proofs of the statements about the encoding (30_encoding.md): first what stuffing leaves and what the decoder reads of a sealed
body, then the rows of the control byte map, and last what the framer does with what the encoding leaves unassigned. -/

namespace Sys2Proof

/-! ## Stuffing -/

/-- Each escape doubles one reserved byte (rule R77). -/
theorem stuff_length (bs : Bytes) : (stuff bs).length = bs.length + bs.countP isReserved := by
  induction bs with
  | nil => rfl
  | cons b bs ih =>
    cases h : isReserved b with
    | true =>
      simp only [stuff_cons_reserved h, List.countP_cons_of_pos h, List.length_cons, ih]
      omega
    | false =>
      have hplain : ¬ isReserved b = true := by simp [h]
      simp only [stuff_cons_plain h, List.countP_cons_of_neg hplain, List.length_cons, ih]
      omega

/-- Unstuffing undoes stuffing (rule R77): the escaped byte is flipped back, and a plain byte is no escape. -/
@[simp] theorem unstuff_stuff (bs : Bytes) : unstuff (stuff bs) = some bs := by
  induction bs with
  | nil => rfl
  | cons b bs ih =>
    cases h : isReserved b with
    | true => simp [stuff_cons_reserved h, unstuff_escape, ih]
    | false => simp [stuff_cons_plain h, unstuff_plain (ne_escape_of_plain h), ih]

/-- Stuffing leaves neither a flag nor a cancel byte (rules R52, R77). -/
theorem not_terminator_of_mem_stuff {bs : Bytes} {x : Byte} (hx : x ∈ stuff bs) : isTerminator x = false := by
  induction bs with
  | nil => cases hx
  | cons b bs ih =>
    cases h : isReserved b with
    | true =>
      rw [stuff_cons_reserved h] at hx
      obtain rfl | rfl | hx := by simpa using hx
      · decide
      · exact not_terminator_of_escaped h
      · exact ih hx
    | false =>
      rw [stuff_cons_plain h] at hx
      obtain rfl | hx := by simpa using hx
      · exact not_terminator_of_plain h
      · exact ih hx

/-! ## Sealed bodies -/

/-- The high byte and the low byte of a checksum, put together in the order they travel (rule R36). -/
theorem trailer_append_crcBytes (b : Bytes) (crc : U16) : trailer (b ++ crcBytes crc) = crc := by
  have hjoin : crc.extractLsb' 8 8 ++ crc.extractLsb' 0 8 = crc := by
    rw [BitVec.extractLsb'_append_extractLsb'_eq_extractLsb' (by rfl)]
    simp
  simpa [trailer, crcBytes, List.getD_eq_getElem?_getD] using hjoin

/-- A sealed body of a control byte and field bytes passes every check before the classification (rule R88). -/
theorem parseCandidate_sealBody (h : Byte) (F : Bytes) : parseCandidate (sealBody (h :: F)) = classify h F := by
  have hlen : (h :: F ++ crcBytes (crc16 (h :: F))).length - 2 = (h :: F).length := by simp
  have htake : (h :: F ++ crcBytes (crc16 (h :: F))).take (h :: F).length = h :: F := List.take_left
  simp only [parseCandidate, sealBody, unstuff_stuff, hlen, htake, trailer_append_crcBytes]
  simp

/-- A terminated sealed body is one candidate, and stands for the instruction its control byte selects (rules R52, R53). -/
theorem decodeWire_sealBody (h : Byte) (F : Bytes) :
    decodeWire (sealBody (h :: F) ++ [flagByte]) =
      match classify h F with
      | .accept f => .ok f.toInstr
      | .drop r => .rejected (.dropped r) := by
  have hinner : (sealBody (h :: F)).any isTerminator = false :=
    List.any_eq_false.mpr fun _ hx => by simp [not_terminator_of_mem_stuff hx]
  cases hc : classify h F <;> simp [decodeWire, hinner, parseCandidate_sealBody, hc]

/-- What the parse drops, every configuration drops. -/
theorem decodeCandidate_of_parse_drop {raw : Bytes} {r : DropReason} (h : parseCandidate raw = .drop r) (c : Config) :
    decodeCandidate c raw = .drop r := by
  simp [decodeCandidate, h]

/-- What the parse accepts and a configuration check refuses. -/
theorem decodeCandidate_of_limitCheck {c : Config} {raw : Bytes} {f : AshFrame} {r : DropReason}
    (h : parseCandidate raw = .accept f) (hl : limitCheck c f = some r) : decodeCandidate c raw = .drop r := by
  simp [decodeCandidate, h, hl]

/-- Settles O10: the candidate is a stuffed body, and stuffing leaves no terminator. -/
theorem encodedFrameEndsInOnlyFlag : Obligations.EncodedFrameEndsInOnlyFlag := by
  intro f
  refine ⟨sealBody (body f), rfl, fun h => ?_, fun h => ?_⟩
  · exact absurd (not_terminator_of_mem_stuff h) (by decide)
  · exact absurd (not_terminator_of_mem_stuff h) (by decide)

/-- Settles O11: the length of stuffing, where a body holds its control byte and two checksum bytes at least. -/
theorem encodedFrameLength : Obligations.EncodedFrameLength := by
  intro f B
  have hwire : (encodeFrame f).length = B.length + B.countP isReserved + 1 := by
    simp [encodeFrame, sealBody, stuff_length, B]
  have hbody : B.length = (fieldBytes f).length + 3 := by simp [B]
  have hreserved : B.countP isReserved ≤ B.length := List.countP_le_length
  omega

/-! ## The control byte map, row by row -/

section ControlByte

variable {c : Byte}

theorem bit7_eq_false_iff : c.getLsbD 7 = false ↔ c.toNat < 0x80 := by
  revert c
  decide

theorem bit6_eq_false_iff (h : 0x80 ≤ c.toNat) : c.getLsbD 6 = false ↔ c.toNat < 0xC0 := by
  revert c
  decide

theorem bit5_eq_false_iff (h : 0x80 ≤ c.toNat) (h' : c.toNat < 0xC0) : c.getLsbD 5 = false ↔ c.toNat < 0xA0 := by
  revert c
  decide

theorem classify_data (h : c.toNat < 0x80) (F : Bytes) : classify c F =
    .accept (.data (c.extractLsb' 4 3) (c.extractLsb' 0 3) (c.getLsbD 3) (maskPayload F)) := by
  rw [classify.eq_def, if_pos (bit7_eq_false_iff.mpr h)]

theorem classify_ack (h : 0x80 ≤ c.toNat) (h' : c.toNat < 0xA0) (F : Bytes) :
    classify c F = .accept (.ack (c.extractLsb' 0 3)) := by
  rw [classify.eq_def, if_neg (by simpa only [bit7_eq_false_iff, not_lt]), if_pos ((bit6_eq_false_iff h).mpr (by omega)),
    if_pos ((bit5_eq_false_iff h (by omega)).mpr h')]

theorem classify_nak (h : 0xA0 ≤ c.toNat) (h' : c.toNat < 0xC0) (F : Bytes) :
    classify c F = .accept (.nak (c.extractLsb' 0 3)) := by
  have h7 : 0x80 ≤ c.toNat := by omega
  rw [classify.eq_def, if_neg (by simpa only [bit7_eq_false_iff, not_lt]), if_pos ((bit6_eq_false_iff h7).mpr h'),
    if_neg (by simpa only [bit5_eq_false_iff h7 h', not_lt])]

theorem classify_reset (F : Bytes) : classify 0xC0 F = .accept .reset := rfl

theorem classify_resetAck (F : Bytes) : classify 0xC1 F = .accept .resetAck := rfl

theorem classify_error (v k : Byte) (extra : Bytes) : classify 0xC2 (v :: k :: extra) = .accept (.error v k) := rfl

theorem classify_unassigned (h : 0xC3 ≤ c.toNat) (F : Bytes) : classify c F = .drop .unknownControl := by
  obtain ⟨hreset, hresetAck, herror⟩ : c ≠ 0xC0 ∧ c ≠ 0xC1 ∧ c ≠ 0xC2 := by
    refine ⟨?_, ?_, ?_⟩ <;> (rintro rfl; simp at h)
  have h7 : 0x80 ≤ c.toNat := by omega
  have h6 : 0xC0 ≤ c.toNat := by omega
  rw [classify.eq_def, if_neg (by simpa only [bit7_eq_false_iff, not_lt]),
    if_neg (by simpa only [bit6_eq_false_iff h7, not_lt]), if_neg hreset, if_neg hresetAck, if_neg herror]

/-- Bits 4:3 of an ACK's control byte are not read (rule R69). -/
theorem classify_ack_any_bits (n : Num3) (x : BitVec 2) (F : Bytes) :
    classify ((4 : Num3) ++ x ++ n) F = .accept (.ack n) := by
  obtain ⟨hlo, hhi, hnum⟩ : 0x80 ≤ ((4 : Num3) ++ x ++ n).toNat ∧ ((4 : Num3) ++ x ++ n).toNat < 0xA0 ∧
      ((4 : Num3) ++ x ++ n).extractLsb' 0 3 = n := by
    revert n x
    decide
  rw [classify_ack hlo hhi, hnum]

/-- Bits 4:3 of a NAK's control byte are not read (rule R69). -/
theorem classify_nak_any_bits (n : Num3) (x : BitVec 2) (F : Bytes) :
    classify ((5 : Num3) ++ x ++ n) F = .accept (.nak n) := by
  obtain ⟨hlo, hhi, hnum⟩ : 0xA0 ≤ ((5 : Num3) ++ x ++ n).toNat ∧ ((5 : Num3) ++ x ++ n).toNat < 0xC0 ∧
      ((5 : Num3) ++ x ++ n).extractLsb' 0 3 = n := by
    revert n x
    decide
  rw [classify_nak hlo hhi, hnum]

theorem frameNumberField_eq : c.extractLsb' 4 3 = BitVec.ofNat 3 (c.toNat / 16) := by
  simp [BitVec.extractLsb', Nat.shiftRight_eq_div_pow]

theorem ackNumberField_eq : c.extractLsb' 0 3 = BitVec.ofNat 3 (c.toNat % 8) := by
  apply BitVec.eq_of_toNat_eq
  simp

theorem retransmitField_eq : c.getLsbD 3 = decide (c.toNat / 8 % 2 = 1) := by
  simp [BitVec.getLsbD, Nat.testBit_eq_decide_div_mod_eq]

end ControlByte

/-- Settles O6: the rows of the map in turn, each with its fields as numbers. -/
theorem controlByteDecodeMap : Obligations.ControlByteDecodeMap := by
  intro c F
  split_ifs with hdata hack hnak hreset hresetAck herror
  · rw [classify_data hdata, frameNumberField_eq, ackNumberField_eq, retransmitField_eq]
  · rw [classify_ack (by omega) hack, ackNumberField_eq]
  · rw [classify_nak (by omega) hnak, ackNumberField_eq]
  · obtain rfl : c = 0xC0 := BitVec.eq_of_toNat_eq hreset
    exact classify_reset F
  · obtain rfl : c = 0xC1 := BitVec.eq_of_toNat_eq hresetAck
    exact classify_resetAck F
  · obtain rfl : c = 0xC2 := BitVec.eq_of_toNat_eq herror
    rcases F with _ | ⟨v, _ | ⟨k, extra⟩⟩ <;> rfl
  · exact classify_unassigned (by omega) F

/-! ## The encoder's control bytes and wire forms -/

theorem controlByte_data_toNat (fn an : Num3) (re : Bool) (p : Bytes) :
    (controlByte (.data fn an re p)).toNat = fn.toNat * 16 + (if re then 8 else 0) + an.toNat := by
  simp only [controlByte]
  revert fn an re
  decide

theorem controlByte_ack_toNat (n : Num3) : (controlByte (.ack n)).toNat = 0x80 + n.toNat := by
  revert n
  decide

theorem controlByte_nak_toNat (n : Num3) : (controlByte (.nak n)).toNat = 0xA0 + n.toNat := by
  revert n
  decide

/-- Settles O7: one lemma per frame type that has fields in its control byte. -/
theorem controlByteEncodeMap : Obligations.ControlByteEncodeMap :=
  ⟨controlByte_data_toNat, fun n => ⟨controlByte_ack_toNat n, controlByte_nak_toNat n⟩, rfl, rfl, fun _ _ => rfl⟩

/-- The encoder stays below the unassigned control bytes (rule R69). -/
theorem controlByte_lt (f : AshFrame) : (controlByte f).toNat < 0xC3 := by
  cases f with
  | data fn an re p =>
    rw [controlByte_data_toNat]
    split <;> omega
  | ack n =>
    rw [controlByte_ack_toNat]
    omega
  | nak n =>
    rw [controlByte_nak_toNat]
    omega
  | reset => decide
  | resetAck => decide
  | error v k => exact (by decide : (0xC2 : Byte).toNat < 0xC3)

/-- Settles O8: the two forms are computed; the source's ResetAck fails the checksum before any configuration is read. -/
theorem resetAndResetAckWireForms : Obligations.ResetAndResetAckWireForms :=
  ⟨by decide, by decide, by decide, by decide, decodeCandidate_of_parse_drop (by decide)⟩

/-- Settles O9: the sixteen forms and the two examples are computed. -/
theorem ackNakErrorDataWireForms : Obligations.AckNakErrorDataWireForms :=
  ⟨by decide, by decide, by decide, by decide⟩

/-! ## Operation codes and table words -/

/-- The reserved operation codes are 0x0 and 0x7 to 0xF (rule R71). -/
theorem decodeOperation_rejected_iff (code : OpCode) (operand : Bytes) :
    decodeOperation code operand = .rejected (.reservedOperation code) ↔ code.toNat = 0 ∨ 7 ≤ code.toNat := by
  have hcodes : (code.toNat = 0 ∨ 7 ≤ code.toNat) ↔
      code ≠ 0x1 ∧ code ≠ 0x2 ∧ code ≠ 0x3 ∧ code ≠ 0x4 ∧ code ≠ 0x5 ∧ code ≠ 0x6 := by
    revert code
    decide
  rw [hcodes, decodeOperation]
  split_ifs <;> simp_all

theorem decodeTableWord_reserved {code : OpCode} (h : code.toNat = 0 ∨ 7 ≤ code.toNat) :
    decodeTableWord 4 code.toNat = none := by
  simp [decodeTableWord, tableWord, decode, (decodeOperation_rejected_iff code []).mpr h]

theorem decodeTableWord_unassigned {c : Byte} (h : 0xC3 ≤ c.toNat) : decodeTableWord 8 c.toNat = none := by
  have hbytes : tableBytes 1 c.toNat = [c] := by simp [tableBytes]
  have hword : tableWord 8 c.toNat = .frame (sealBody (c :: padFields c []) ++ [flagByte]) := by
    simp [tableWord, hbytes, show ¬ c.toNat ≤ 6 by omega]
  simp [decodeTableWord, hword, decode, decodeWire_sealBody, classify_unassigned h]

/-- Settles O17: the listed words are computed; the two ranges follow from the operation codes and the control byte map. -/
theorem tableWordsDecode : Obligations.TableWordsDecode := by
  refine ⟨?_, ?_, ?_, ?_, ?_, ?_, ?_, ?_, ?_, ?_, ?_, ?_, ?_, ?_, ?_, ?_, ?_, ?_, ?_, ?_,
    fun _ => decodeTableWord_reserved, fun _ => decodeTableWord_unassigned⟩ <;> decide

namespace Machine

/-! ## What the framer does with dropped candidates and reserved codes -/

/-- The FEED of a flag that ends, while nothing is discarded, a candidate that is dropped (rules R100, R102). -/
theorem exec_feed_flag_of_drop {s : State} {r : DropReason} (hd : s.rxDiscarding = false)
    (hr : decodeCandidate s.config s.rxBuf = .drop r) :
    exec (.feed [flagByte]) s =
      .next { s with rxBuf := [], dropLog := s.dropLog ++ [r], results := s.results ++ [.consumed 1] } := by
  have hbyte : feedByte s flagByte = (s.setRx [] false).drop r := by
    have hne : flagByte ≠ cancelByte := by decide
    simp [feedByte, hne, feedFlag, hd, endCandidate, hr]
  simp [exec, execFeed, hbyte, State.record, State.drop, State.setRx, hd]

/-- Settles O15: the candidate parses to the Error frame, which the configuration check refuses. -/
theorem unknownErrorCodeIsDropped : Obligations.UnknownErrorCodeIsDropped := by
  intro s v k extra hk
  have hparse : parseCandidate (sealBody (0xC2 :: v :: k :: extra)) = .accept (.error v k) := by
    rw [parseCandidate_sealBody, classify_error]
  have hdrop : decodeCandidate s.config (sealBody (0xC2 :: v :: k :: extra)) = .drop .unknownErrorCode :=
    decodeCandidate_of_limitCheck hparse (by simp [limitCheck, errorCodeKnown, hk])
  exact ⟨hdrop, fun hd hbuf => exec_feed_flag_of_drop hd (hbuf ▸ hdrop)⟩

/-- Settles O16: the last row of the control byte map, the bound on the encoder's bytes, and the rows of ACK and NAK. -/
theorem unassignedControlBytesAreDropped : Obligations.UnassignedControlBytesAreDropped := by
  refine ⟨fun s h F hh hd hbuf => ?_, controlByte_lt, classify_ack_any_bits, classify_nak_any_bits, by decide, by decide⟩
  have hparse : parseCandidate s.rxBuf = .drop .unknownControl := by
    rw [hbuf, parseCandidate_sealBody, classify_unassigned hh]
  exact exec_feed_flag_of_drop hd (decodeCandidate_of_parse_drop hparse s.config)

/-- A step refuses a call that the operation decoder rejects, and nothing else: no instruction's meaning is a refusal. -/
theorem step_refused_iff (s : State) (r : Refusal) : step s = .refused r ↔
    ∃ code operand rest, s.pending = .call code operand :: rest ∧
      decodeOperation code operand = .rejected (.reservedOperation code) ∧ r = .reservedOperation code := by
  constructor
  · intro h
    match hp : s.pending with
    | [] => simp [step, fetch_idle hp] at h
    | .hardwareReset :: rest => simp [step, fetch_restart hp] at h
    | .call code operand :: rest =>
      obtain ⟨i, hd, -⟩ | hd := decodeOperation_cases code operand
      · obtain ⟨t, ht⟩ := everyInstructionCompletes i (s.setPending rest)
        simp [step, fetch_run hp hd, ht] at h
      · simp only [step, fetch_reserved hp hd, Host.Outcome.refused.injEq] at h
        exact ⟨code, operand, rest, rfl, hd, h.symm⟩
  · rintro ⟨code, operand, rest, hp, hd, rfl⟩
    simp [step, fetch_reserved hp hd]

/-- Settles O38: the codes and ports as they are written; a refusal is a rejected code, and those are the reserved ones. -/
theorem operationCodesAndReservedRefusal : Obligations.OperationCodesAndReservedRefusal := by
  refine ⟨fun _ => ⟨rfl, rfl⟩, ⟨rfl, rfl, rfl, rfl⟩, fun _ => ⟨rfl, rfl⟩, ⟨rfl, rfl, rfl, rfl⟩, fun s r => ?_⟩
  simp only [step_refused_iff, decodeOperation_rejected_iff]

end Machine

end Sys2Proof
end

section
/-! Proofs of the statements about the codecs (40_codecs.md): the checksum, byte stuffing, the payload mask, and last the numbering
of the DATA frames that sends queue. -/

namespace Sys2Proof

open Sys2Proof.Reading

/-! ## The checksum -/

/-- One byte of the checksum loop on numbers (rule R73): each truncation of the pseudocode is a width of the model. -/
theorem crcStep_toNat (crc : U16) (b : Byte) : (crcStep crc b).toNat =
    let x := ((crc.toNat >>> 8) ^^^ b.toNat) % 256
    let y := x ^^^ (x >>> 4)
    ((crc.toNat <<< 8) ^^^ (y <<< 12) ^^^ (y <<< 5) ^^^ y) % 65536 := by
  have hx : ((crc >>> 8).setWidth 8 ^^^ b).toNat = ((crc.toNat >>> 8) ^^^ b.toNat) % 256 := by
    rw [Nat.xor_mod_two_pow (n := 8), Nat.mod_eq_of_lt b.isLt]
    simp
  have hy (x : Byte) : ((x ^^^ (x >>> 4)).setWidth 16).toNat = x.toNat ^^^ (x.toNat >>> 4) := by
    rw [BitVec.toNat_setWidth_of_le (by decide)]
    simp
  have hmix (w : U16) : ((crc <<< 8) ^^^ (w <<< 12) ^^^ (w <<< 5) ^^^ w).toNat =
      ((crc.toNat <<< 8) ^^^ (w.toNat <<< 12) ^^^ (w.toNat <<< 5) ^^^ w.toNat) % 65536 := by
    simp [Nat.xor_mod_two_pow (n := 16), Nat.mod_eq_of_lt w.isLt]
  simp only [← hx, ← hy, ← hmix]
  rfl

/-- The loop on words and the loop on numbers go through the same values. -/
theorem crc16_toNat (bs : Bytes) : (crc16 bs).toNat = crcNat (bs.map BitVec.toNat) := by
  rw [crcNat, List.foldl_map]
  exact (List.foldl_hom BitVec.toNat fun crc b => (crcStep_toNat crc b).symm).symm

/-- Settles O1: the loop is the same step by step; the corner cases and the example are computed. -/
theorem crcFollowsPseudocode : Obligations.CrcFollowsPseudocode :=
  ⟨crc16_toNat, by decide, by decide, by decide, by decide⟩

/-- What one step of the checksum mixes in for `x`, the high byte with the next byte added (rule R73). -/
def crcFeedback (x : Byte) : U16 :=
  let w : U16 := (x ^^^ (x >>> 4)).setWidth 16
  (w <<< 12) ^^^ (w <<< 5) ^^^ w

/-- A step moves the low byte up and mixes in the feedback of the high byte. -/
theorem crcStep_append (h l b : Byte) : crcStep (h ++ l) b = (l ++ 0#8) ^^^ crcFeedback (h ^^^ b) := by
  have hhigh : ((h ++ l : U16) >>> 8).setWidth 8 = h := by
    rw [BitVec.setWidth_ushiftRight_eq_extractLsb, BitVec.extractLsb'_append_eq_left]
  have hlow : (h ++ l : U16) <<< 8 = l ++ 0#8 := by
    rw [BitVec.shiftLeft_eq_concat_of_lt (by decide)]
    exact congrArg (· ++ 0#8) BitVec.extractLsb'_append_eq_right
  simp only [crcStep, hhigh, hlow, crcFeedback, BitVec.xor_assoc]

@[simp] theorem crcFeedback_zero : crcFeedback 0#8 = 0#16 := by decide

/-- The low byte of the feedback tells whether there is any. -/
theorem eq_zero_of_crcFeedback_low_eq_zero {x : Byte} : (crcFeedback x).setWidth 8 = 0#8 → x = 0#8 := by
  revert x
  decide

/-- A checksum is its high byte followed by its low byte. -/
theorem extractLsb'_append_extractLsb'_self (c : U16) : c.extractLsb' 8 8 ++ c.extractLsb' 0 8 = c :=
  trailer_append_crcBytes [] c

/-- A step leaves a zero low byte only when it takes the high byte, and then it mixes nothing in. -/
theorem crcStep_eq_append_zero_iff (c : U16) (b l : Byte) : crcStep c b = l ++ 0#8 ↔ c = b ++ l := by
  constructor
  · intro heq
    obtain ⟨h, m, rfl⟩ : ∃ h m : Byte, c = h ++ m := ⟨_, _, (extractLsb'_append_extractLsb'_self c).symm⟩
    rw [crcStep_append] at heq
    have hlow : (crcFeedback (h ^^^ b)).setWidth 8 = 0#8 := by
      have := congrArg (BitVec.setWidth 8) heq
      rwa [BitVec.setWidth_xor, BitVec.setWidth_append_eq_right, BitVec.setWidth_append_eq_right, BitVec.zero_xor] at this
    have hbyte : h ^^^ b = 0#8 := eq_zero_of_crcFeedback_low_eq_zero hlow
    rw [hbyte, crcFeedback_zero, BitVec.xor_zero, BitVec.append_left_inj] at heq
    rw [BitVec.xor_eq_zero_iff.mp hbyte, heq]
  · rintro rfl
    rw [crcStep_append, BitVec.xor_self, crcFeedback_zero, BitVec.xor_zero]

/-- The residue of a checksum and two bytes (rule R74): each of the two steps is undone by the byte it takes. -/
theorem crc16_append_pair_eq_zero_iff (bs : Bytes) (hi lo : Byte) : crc16 (bs ++ [hi, lo]) = 0 ↔ crc16 bs = hi ++ lo := by
  rw [crc16_append, ← crcStep_eq_append_zero_iff (crc16 bs)]
  exact crcStep_eq_append_zero_iff (crcStep (crc16 bs) hi) lo 0#8

/-- Settles O2: the second law, and for the first the two bytes of the checksum put together. -/
theorem crcResidueIsZero : Obligations.CrcResidueIsZero :=
  ⟨fun bs => (crc16_append_pair_eq_zero_iff bs _ _).mpr (extractLsb'_append_extractLsb'_self _).symm,
    crc16_append_pair_eq_zero_iff⟩

/-! ## Byte stuffing -/

theorem isReserved_iff_mem (b : Byte) : isReserved b = true ↔ b ∈ reservedBytes := List.contains_iff_mem

/-- `Stuff` is a map from bytes to byte strings, joined (rule R75). -/
theorem stuff_eq_flatMap (bs : Bytes) :
    stuff bs = bs.flatMap fun b => if b ∈ reservedBytes then [escapeByte, b ^^^ 0x20] else [b] := by
  induction bs with
  | nil => rfl
  | cons b bs ih =>
    simp only [stuff, isReserved_iff_mem, List.flatMap_cons, ← ih]
    split <;> rfl

/-- Settles O3: the stuffer joined from its bytes, the unstuffer's two cases; the forms and the examples are computed. -/
theorem stuffingFollowsPseudocode : Obligations.StuffingFollowsPseudocode :=
  ⟨stuff_eq_flatMap, by decide, by decide, by decide, rfl, rfl, unstuff_escape, fun _ bs h => unstuff_plain h bs,
    by decide, by decide, by decide, by decide⟩

/-- The second bytes of the escapes (rule R75). -/
def escapedForms : Bytes := [0x5E, 0x5D, 0x31, 0x33, 0x38, 0x3A]

theorem xor_mem_escapedForms {b : Byte} (h : isReserved b = true) : b ^^^ 0x20 ∈ escapedForms := by
  revert b
  decide

theorem isReserved_xor_eq_false {b : Byte} (h : isReserved b = true) : isReserved (b ^^^ 0x20) = false := by
  revert b
  decide

/-- The only reserved byte that stuffing leaves is the escape byte (rule R77). -/
theorem eq_escapeByte_of_mem_stuff {bs : Bytes} {x : Byte} (hx : x ∈ stuff bs) (hr : isReserved x = true) : x = escapeByte := by
  rw [stuff_eq_flatMap, List.mem_flatMap] at hx
  obtain ⟨b, -, hx⟩ := hx
  split at hx
  next hb =>
    obtain rfl | rfl := by simpa using hx
    · rfl
    · exact absurd hr (ne_true_of_eq_false (isReserved_xor_eq_false ((isReserved_iff_mem b).mpr hb)))
  next hb =>
    obtain rfl := List.mem_singleton.mp hx
    exact absurd ((isReserved_iff_mem x).mp hr) hb

/-- Every escape byte that stuffing leaves stands before the escaped form of a reserved byte (rule R77). -/
theorem escapedForm_after_escapeByte {bs : Bytes} {i : Nat} (hi : (stuff bs)[i]? = some escapeByte) :
    ∃ c, (stuff bs)[i + 1]? = some c ∧ c ∈ escapedForms := by
  induction bs generalizing i with
  | nil => simp at hi
  | cons b bs ih =>
    cases h : isReserved b with
    | true =>
      rw [stuff_cons_reserved h] at hi ⊢
      match i with
      | 0 => exact ⟨_, rfl, xor_mem_escapedForms h⟩
      | 1 => exact absurd (Option.some.inj hi) (ne_escape_of_plain (isReserved_xor_eq_false h))
      | i + 2 => exact ih hi
    | false =>
      rw [stuff_cons_plain h] at hi ⊢
      match i with
      | 0 => exact absurd (Option.some.inj hi) (ne_escape_of_plain h)
      | i + 1 => exact ih hi

/-- Settles O4: (a) and (c) are the round trip and the length of stuffing, (b) what stuffing leaves; (d) is computed. -/
theorem stuffingLaws : Obligations.StuffingLaws := by
  have hraw : ∀ b ∈ ([0x7E, 0x11, 0x13, 0x18, 0x1A] : Bytes), isReserved b = true ∧ b ≠ escapeByte := by decide
  refine ⟨unstuff_stuff, fun bs b hb hmem => ?_, fun _ _ => escapedForm_after_escapeByte, stuff_length, by decide, by decide⟩
  obtain ⟨hreserved, hne⟩ := hraw b hmem
  exact hne (eq_escapeByte_of_mem_stuff hb hreserved)

/-! ## The payload mask -/

theorem maskStep_ne_zero {m : Byte} (h : m ≠ 0) : maskStep m ≠ 0 := by
  revert m
  decide

/-- The generator never reaches 0, where it would stay (rule R78). -/
theorem mask_ne_zero (i : Nat) : mask i ≠ 0 := by
  induction i with
  | zero => decide
  | succ i ih => exact maskStep_ne_zero ih

/-- The generator is `maskStep` iterated from the seed. -/
theorem mask_eq_iterate (i : Nat) : mask i = maskStep^[i] 0x42 := by
  induction i with
  | zero => rfl
  | succ i ih => rw [Function.iterate_succ_apply', ← ih, mask]

/-- The seed comes back after 255 steps and not after 85, 51 or 15, so after no proper divisor of 255. -/
theorem minimalPeriod_maskStep : Function.minimalPeriod maskStep 0x42 = 255 := by
  have hdvd : Function.minimalPeriod maskStep 0x42 ∣ 255 :=
    Function.IsPeriodicPt.minimalPeriod_dvd (by decide +kernel : maskStep^[255] 0x42 = 0x42)
  have hproper : ∀ p ∈ Nat.divisors 255, p ≠ 255 → p ∣ 85 ∨ p ∣ 51 ∨ p ∣ 15 := by decide +kernel
  by_contra hne
  obtain h | h | h := hproper _ (by simpa using hdvd) hne <;>
    exact absurd (Function.isPeriodicPt_iff_minimalPeriod_dvd.mpr h) (by decide +kernel)

/-- The generator's period (rule R78). -/
theorem mask_add_255 (i : Nat) : mask (i + 255) = mask i := by
  rw [mask_eq_iterate, mask_eq_iterate, ← minimalPeriod_maskStep, Function.iterate_add_minimalPeriod_eq]

theorem mask_injOn : Set.InjOn mask (Finset.range 255) := by
  have h := Function.iterate_injOn_Iio_minimalPeriod (f := maskStep) (x := 0x42)
  rw [minimalPeriod_maskStep] at h
  intro i hi j hj hij
  rw [mask_eq_iterate, mask_eq_iterate] at hij
  exact h (by simpa using hi) (by simpa using hj) hij

/-- The 255 outputs of one period are distinct and non-zero, so they are all the non-zero bytes (rule R78). -/
theorem mask_surjOn : Set.SurjOn mask (Finset.range 255) (Finset.univ.erase (0 : Byte)) :=
  Finset.surjOn_of_injOn_of_card_le mask (fun i _ => by simpa using mask_ne_zero i) mask_injOn
    (by simp [← FinEnum.card_eq_fintypeCard])

/-- The generator from its `k`-th output on masks byte `i` with output `k + i` (rule R79). -/
theorem maskFrom_getElem? (p : Bytes) (k i : Nat) : (maskFrom (mask k) p)[i]? = p[i]?.map (· ^^^ mask (k + i)) := by
  induction p generalizing k i with
  | nil => rfl
  | cons b bs ih =>
    match i with
    | 0 => rfl
    | i + 1 =>
      rw [← Nat.add_assoc, Nat.add_right_comm]
      exact ih (k + 1) i

/-- Settles O5: the recurrence from `maskStep`; the period and the distinct outputs; the mask byte for byte; masking twice. -/
theorem maskLaws : Obligations.MaskLaws := by
  refine ⟨⟨rfl, fun i => ?_⟩, mask_ne_zero, mask_add_255, fun b hb => ?_, by decide +kernel, fun p i => ?_, rfl,
    maskFrom_maskFrom 0x42, by decide⟩
  · rw [mask, maskStep]
    cases (mask i).getLsbD 0 <;> rfl
  · obtain ⟨i, hi, rfl⟩ := mask_surjOn (by simpa using hb)
    exact ⟨i, by simpa using hi, rfl, fun j hj hij => mask_injOn (by simpa using hj) hi hij⟩
  · simpa [maskPayload, mask] using maskFrom_getElem? p 0 i

/-! ## The numbering of sends -/

namespace Machine

/-- Addition on 3-bit numbers as the statements write it (rule R80). -/
theorem num3_add_ofNat (n : Num3) (k : Nat) : n + BitVec.ofNat 3 k = BitVec.ofNat 3 ((n.toNat + k) % 8) := by
  apply BitVec.eq_of_toNat_eq
  simp [BitVec.toNat_add]

theorem num3_add_ofNat_succ (n : Num3) (k : Nat) : n + BitVec.ofNat 3 (k + 1) = n + 1 + BitVec.ofNat 3 k := by
  rw [Nat.add_comm, BitVec.ofNat_add, BitVec.add_assoc]
  rfl

theorem num3_add_ofNat_zero (n : Num3) : n + BitVec.ofNat 3 0 = n := BitVec.add_zero n

@[simp] theorem queueData_txFrameNum (p : Bytes) (fn an : Num3) (s : State) : (queueData p fn an s).txFrameNum = fn + 1 := rfl

@[simp] theorem queueData_ackNum (p : Bytes) (fn an : Num3) (s : State) : (queueData p fn an s).ackNum = s.ackNum := rfl

@[simp] theorem queueData_results (p : Bytes) (fn an : Num3) (s : State) :
    (queueData p fn an s).results = s.results ++ [.sent fn] := rfl

/-- Under a configuration that refuses nothing, sends queue one DATA frame each, numbered in turn from `tx_frame_num`, all with the
`ack_num` of the start (rules R80, R97, R135). -/
theorem sendAll_of_unlimited (ps : List Bytes) (s : State) (hgate : s.config.gateSendOnReady = false)
    (hlen : s.config.maxPayload = none) (hcap : s.config.txQueueCap = none) :
    ∃ t, SendAll ps s t ∧ t.txFrameNum = s.txFrameNum + BitVec.ofNat 3 ps.length ∧
      t.results = s.results ++ (List.range ps.length).map (fun k => .sent (s.txFrameNum + BitVec.ofNat 3 k)) ∧
      t.txQueue = s.txQueue ++
        ps.mapIdx fun k p => encodeFrame (.data (s.txFrameNum + BitVec.ofNat 3 k) s.ackNum false p) := by
  induction ps generalizing s with
  | nil => exact ⟨s, rfl, by simp, by simp, by simp⟩
  | cons p ps ih =>
    have hsend := exec_sendData_of_admitted (p := p) (s := s) (.inl hgate) (by simp [hlen]) (by simp [txFull, hcap])
    obtain ⟨t, hall, hnum, hres, hqueue⟩ := ih (queueData p s.txFrameNum s.ackNum s) hgate hlen hcap
    refine ⟨t, ⟨_, hsend, hall⟩, ?_, ?_, ?_⟩
    · rw [hnum, List.length_cons, num3_add_ofNat_succ, queueData_txFrameNum]
    · simp only [hres, List.length_cons, List.range_succ_eq_map, List.map_cons, List.map_map, Function.comp_def,
        Nat.succ_eq_add_one, num3_add_ofNat_succ, num3_add_ofNat_zero, queueData_txFrameNum, queueData_results,
        List.append_assoc, List.singleton_append]
    · simp only [hqueue, List.mapIdx_cons, num3_add_ofNat_succ, num3_add_ofNat_zero, queueData_txFrameNum, queueData_ackNum,
        queueData_txQueue, List.append_assoc, List.singleton_append]

/-- Settles O19: the sends in turn, with the numbers written mod 8. -/
theorem sendsNumberFramesModEight : Obligations.SendsNumberFramesModEight := by
  intro s ps hgate hlen hcap
  simpa only [num3_add_ofNat] using sendAll_of_unlimited ps s hgate hlen hcap

end Machine

end Sys2Proof
end

section
/-! Proofs of the statements about the frame codec (41_frame_codec.md): decoding what was encoded, the decoder against its pseudocode,
and last what the framer does with a decoded frame. -/

namespace Sys2Proof

open Sys2Proof.Reading

/-! ## Decoding what was encoded -/

/-- The fields of a DATA frame's control byte are read back from where they were written (rules R54, R55). -/
theorem controlByte_data_fields (fn an : Num3) (re : Bool) (p : Bytes) :
    (controlByte (.data fn an re p)).extractLsb' 4 3 = fn ∧ (controlByte (.data fn an re p)).extractLsb' 0 3 = an ∧
      (controlByte (.data fn an re p)).getLsbD 3 = re := by
  simp only [controlByte]
  revert fn an re
  decide

/-- Every frame is classified as itself from its own control byte and field bytes. -/
theorem classify_controlByte_fieldBytes (f : AshFrame) : classify (controlByte f) (fieldBytes f) = .accept f := by
  cases f with
  | data fn an re p =>
    have hlt : (controlByte (.data fn an re p)).toNat < 0x80 := by
      rw [controlByte_data_toNat]
      split <;> omega
    obtain ⟨hfn, han, hre⟩ := controlByte_data_fields fn an re p
    have hmask : maskPayload (maskPayload p) = p := maskFrom_maskFrom 0x42 p
    rw [classify_data hlt, hfn, han, hre, fieldBytes, hmask]
  | ack n =>
    have hbits : controlByte (.ack n) = (4 : Num3) ++ (0 : BitVec 2) ++ n := by
      revert n
      decide
    rw [hbits, classify_ack_any_bits]
  | nak n =>
    have hbits : controlByte (.nak n) = (5 : Num3) ++ (0 : BitVec 2) ++ n := by
      revert n
      decide
    rw [hbits, classify_nak_any_bits]
  | reset => exact classify_reset _
  | resetAck => exact classify_resetAck _
  | error v k => exact classify_error v k []

/-- What the parse and the configuration checks accept. -/
theorem decodeCandidate_of_admitted {c : Config} {raw : Bytes} {f : AshFrame}
    (h : parseCandidate raw = .accept f) (hl : limitCheck c f = none) : decodeCandidate c raw = .accept f := by
  simp [decodeCandidate, h, hl]

/-- The premise of rule R94 is that the configuration checks pass. -/
theorem limitCheck_eq_none_of_within {c : Config} {f : AshFrame}
    (hlen : ∀ fn an re p m, f = .data fn an re p → c.maxPayload = some m → p.length ≤ m)
    (hcode : ∀ v k, f = .error v k → k ∈ c.errorCodes) : limitCheck c f = none := by
  cases f with
  | data fn an re p =>
    have hfits : overMax c.maxPayload p.length = false := by
      cases hm : c.maxPayload with
      | none => rfl
      | some m => simpa using hlen fn an re p m rfl hm
    simp [limitCheck, hfits]
  | error v k => simp [limitCheck, errorCodeKnown, hcode v k rfl]
  | reset => rfl
  | resetAck => rfl
  | ack n => rfl
  | nak n => rfl

/-- Settles O13: the candidate is the sealed body, which parses to its control byte's classification, and the checks pass. -/
theorem frameRoundTrip : Obligations.FrameRoundTrip := by
  intro c f hlen hcode
  rw [← List.dropLast_eq_take, encodeFrame_dropLast]
  have hparse : parseCandidate (sealBody (body f)) = .accept f :=
    (parseCandidate_sealBody _ _).trans (classify_controlByte_fieldBytes f)
  exact decodeCandidate_of_admitted hparse (limitCheck_eq_none_of_within hlen hcode)

/-- The round trip of a frame instruction, over its wire bytes. -/
theorem decode_encode_toInstr (f : AshFrame) : decode (encode f.toInstr) = .ok f.toInstr := by
  rw [encode_toInstr]
  simp only [decode, encodeFrame, body, decodeWire_sealBody, classify_controlByte_fieldBytes]

/-- Settles O14: a frame instruction by its wire bytes, an operation by its code. -/
theorem instructionRoundTrip : Obligations.InstructionRoundTrip := by
  intro i
  cases i with
  | data fn an re p => exact decode_encode_toInstr (.data fn an re p)
  | ack n => exact decode_encode_toInstr (.ack n)
  | nak n => exact decode_encode_toInstr (.nak n)
  | rst => exact decode_encode_toInstr .reset
  | rstack => exact decode_encode_toInstr .resetAck
  | error v k => exact decode_encode_toInstr (.error v k)
  | sendData p => rfl
  | reset => rfl
  | feed bs => rfl
  | pollOutgoing => rfl
  | recvFrame => rfl
  | readStatus => rfl

/-! ## The decoder and its pseudocode -/

/-- The trailing checksum as the pseudocode of rule R88 puts it together. -/
theorem trailer_toNat {B : Bytes} (h : 2 ≤ B.length) :
    (trailer B).toNat = (B[B.length - 2]!.toNat <<< 8) ||| B[B.length - 1]!.toNat := by
  have hhi : B.length - 2 < B.length := by omega
  have hlo : B.length - 1 < B.length := by omega
  rw [trailer, BitVec.toNat_append]
  simp [hhi, hlo]

/-- The checksum test of the pseudocode is the model's. -/
theorem crc16_eq_trailer_iff {B : Bytes} (h : 2 ≤ B.length) : crc16 (B.take (B.length - 2)) = trailer B ↔
    (crc16 (B.take (B.length - 2))).toNat = (B[B.length - 2]!.toNat <<< 8) ||| B[B.length - 1]!.toNat := by
  rw [← trailer_toNat h, BitVec.toNat_inj]

/-- A candidate whose checksum is right is classified by its first byte, with the bytes between it and the checksum. -/
theorem parseCandidate_of_checksum {raw B : Bytes} (hB : unstuff raw = some B) (hlen : 3 ≤ B.length)
    (hcrc : crc16 (B.take (B.length - 2)) = trailer B) :
    parseCandidate raw = classify B[0]! ((B.drop 1).take (B.length - 3)) := by
  have hhead : B.headD 0 = B[0]! := by cases B <;> rfl
  have hfields : (B.take (B.length - 2)).drop 1 = (B.drop 1).take (B.length - 3) := List.drop_take
  simp only [parseCandidate, hB, if_neg (Nat.not_lt.mpr hlen), hcrc, ne_eq, not_true_eq_false, if_false, hhead, ← hfields]

theorem exists_cons_cons_of_two_le_length {F : Bytes} (h : 2 ≤ F.length) : ∃ v k extra, F = v :: k :: extra := by
  obtain _ | ⟨v, _ | ⟨k, extra⟩⟩ := F
  · simp at h
  · simp at h
  · exact ⟨v, k, extra, rfl⟩

/-- Past the checksum, the pseudocode of rule R88 takes the row of the control byte and makes that row's configuration check. -/
theorem decodeCandidate_of_classify {raw F : Bytes} {c : Byte} (cfg : Config) (h : parseCandidate raw = classify c F) :
    decodeCandidate cfg raw =
      if c.toNat < 0x80 then
        if exceeds cfg.maxPayload F.length then .drop .tooLong
        else .accept (.data (BitVec.ofNat 3 (c.toNat / 16)) (BitVec.ofNat 3 (c.toNat % 8)) (decide (c.toNat / 8 % 2 = 1))
          (maskPayload F))
      else if c.toNat < 0xA0 then .accept (.ack (BitVec.ofNat 3 (c.toNat % 8)))
      else if c.toNat < 0xC0 then .accept (.nak (BitVec.ofNat 3 (c.toNat % 8)))
      else if c.toNat = 0xC0 then .accept .reset
      else if c.toNat = 0xC1 then .accept .resetAck
      else if c.toNat = 0xC2 then
        if F.length < 2 then .drop .tooShort
        else if F[1]! ∉ cfg.errorCodes then .drop .unknownErrorCode
        else .accept (.error F[0]! F[1]!)
      else .drop .unknownControl := by
  rw [controlByteDecodeMap] at h
  split_ifs at h ⊢ with hdata hlong hack hnak hreset hresetAck herror hfew hknown
  · rw [Machine.exceeds_eq_overMax] at hlong
    exact decodeCandidate_of_limitCheck h (by simp [limitCheck, hlong])
  · rw [Machine.exceeds_eq_overMax] at hlong
    exact decodeCandidate_of_admitted h (by simp [limitCheck, hlong])
  · exact decodeCandidate_of_admitted h rfl
  · exact decodeCandidate_of_admitted h rfl
  · exact decodeCandidate_of_admitted h rfl
  · exact decodeCandidate_of_admitted h rfl
  · obtain _ | ⟨v, _ | ⟨k, extra⟩⟩ := F
    · exact decodeCandidate_of_parse_drop h cfg
    · exact decodeCandidate_of_parse_drop h cfg
    · simp at hfew
  · obtain ⟨v, k, extra, rfl⟩ := exists_cons_cons_of_two_le_length (Nat.le_of_not_lt hfew)
    exact decodeCandidate_of_admitted h (by simpa [limitCheck, errorCodeKnown] using hknown)
  · obtain ⟨v, k, extra, rfl⟩ := exists_cons_cons_of_two_le_length (Nat.le_of_not_lt hfew)
    exact decodeCandidate_of_limitCheck h (by simpa [limitCheck, errorCodeKnown] using hknown)
  · exact decodeCandidate_of_parse_drop h cfg

/-- Settles O12: the checks before the classification, in their order. -/
theorem decodeCandidateFollowsPseudocode : Obligations.DecodeCandidateFollowsPseudocode := by
  intro cfg raw
  unfold decodeByR88
  cases hB : unstuff raw with
  | none => exact decodeCandidate_of_parse_drop (by simp [parseCandidate, hB]) cfg
  | some B =>
    dsimp only
    by_cases hshort : B.length < 3
    · rw [if_pos hshort]
      exact decodeCandidate_of_parse_drop (by simp [parseCandidate, hB, hshort]) cfg
    rw [if_neg hshort]
    by_cases hcrc : crc16 (B.take (B.length - 2)) = trailer B
    · rw [if_neg (not_not_intro ((crc16_eq_trailer_iff (by omega)).mp hcrc))]
      exact decodeCandidate_of_classify cfg (parseCandidate_of_checksum hB (by omega) hcrc)
    · rw [if_pos (mt (crc16_eq_trailer_iff (by omega)).mpr hcrc)]
      exact decodeCandidate_of_parse_drop (by simp [parseCandidate, hB, hshort, hcrc]) cfg

namespace Machine

/-! ## A FEED that completes one frame -/

/-- With room for the whole candidate, bytes that hold no terminator join `rx_buf` (rule R103). -/
theorem feedBytes_eq_setRx_append {bs : Bytes} {s : State} (hd : s.rxDiscarding = false)
    (hplain : ∀ b ∈ bs, isTerminator b = false) (hroom : withinCap s.config.rxBufCap (s.rxBuf.length + bs.length)) :
    feedBytes bs s = s.setRx (s.rxBuf ++ bs) false := by
  induction bs generalizing s with
  | nil => simp [State.setRx, ← hd]
  | cons b bs ih =>
    obtain ⟨hb, hbs⟩ := List.forall_mem_cons.mp hplain
    have hfull : rxBufFull s = false := by
      rw [rxBufFull, atCap_eq_false_iff]
      exact fun hcap => absurd (hroom _ hcap) (by simp)
    obtain ⟨hflag, hcancel⟩ : b ≠ flagByte ∧ b ≠ cancelByte := by simpa [isTerminator] using hb
    have hbyte : feedByte s b = s.setRx (s.rxBuf ++ [b]) false := by
      simp [feedByte, hflag, hcancel, feedOther, hd, hfull]
    have hroom' : withinCap s.config.rxBufCap ((s.rxBuf ++ [b]).length + bs.length) := by
      simpa [Nat.add_assoc, Nat.add_comm 1] using hroom
    rw [feedBytes_cons, hbyte, ih rfl hbs hroom']
    simp [State.setRx]

/-- The FEED of bytes that hold no terminator and then the flag ends the candidate they complete (rules R100, R102). -/
theorem exec_feed_append_flag {bs : Bytes} {s : State} (hd : s.rxDiscarding = false)
    (hplain : ∀ b ∈ bs, isTerminator b = false) (hroom : withinCap s.config.rxBufCap (s.rxBuf.length + bs.length)) :
    exec (.feed (bs ++ [flagByte])) s =
      .next ((endCandidate (s.rxBuf ++ bs) (s.setRx [] false)).record (.consumed (bs.length + 1))) := by
  have hne : flagByte ≠ cancelByte := by decide
  simp [exec, execFeed, feedBytes_append, feedBytes_eq_setRx_append hd hplain hroom, feedByte, hne, feedFlag, State.setRx]

/-- The frame instruction is the end of any candidate that parses to that frame: the same configuration checks, then AcceptFrame. -/
theorem exec_toInstr_of_parse {f : AshFrame} {raw : Bytes} (h : parseCandidate raw = .accept f) (s : State) :
    exec f.toInstr s = .next (endCandidate raw s) := by
  cases hl : limitCheck s.config f with
  | none => simp [exec_toInstr, hl, endCandidate, decodeCandidate_of_admitted h hl]
  | some r => simp [exec_toInstr, hl, endCandidate, decodeCandidate_of_limitCheck h hl]

/-- A frame's wire bytes decode to its instruction only if the candidate in them parses to it. -/
theorem parseCandidate_of_decodeWire {raw : Bytes} {f : AshFrame} (h : decodeWire (raw ++ [flagByte]) = .ok f.toInstr) :
    parseCandidate raw = .accept f := by
  unfold decodeWire at h
  simp only [List.dropLast_concat] at h
  split_ifs at h
  cases hp : parseCandidate raw with
  | drop r => simp [hp] at h
  | accept g =>
    have hinstr : g.toInstr = f.toInstr := by simpa [hp] using h
    have hframe : some g = some f := by rw [← toFrame?_toInstr, hinstr, toFrame?_toInstr]
    rw [Option.some.inj hframe]

/-- A result returned after a reception joins those returned before it. -/
theorem State.KeptByReception.record_eq {s t : State} (h : s.KeptByReception t) (r : Result) :
    t.record r = { t with results := s.results ++ [r] } := by
  rw [State.record, h.results]

/-- Settles O37: the FEED ends the candidate that the frame instruction stands for, and then returns its count. -/
theorem stepRunsDecodedFrame : Obligations.StepRunsDecodedFrame := by
  intro s bs rest f hp hd hplain hroom hwire
  have hparse : parseCandidate (s.rxBuf ++ bs) = .accept f := parseCandidate_of_decodeWire hwire
  have htaken : ({ s with pending := rest } : State).setRx [] false = { s with pending := rest, rxBuf := [] } := by
    simp [State.setRx, hd]
  have hfeed := exec_feed_append_flag (s := { s with pending := rest }) hd hplain hroom
  rw [htaken, (keptByReception_endCandidate _ _).record_eq] at hfeed
  have hstep := stepRunsDecodedOperation s 0x3 (bs ++ [flagByte]) rest _ hp rfl
  exact ⟨_, exec_toInstr_of_parse hparse _, hstep.trans hfeed⟩

/-! ## The frame instructions -/

/-- Deliver, as the statements write it (rule R105). -/
theorem deliver_eq (f : AshFrame) (s : State) : deliver f s =
    if s.config.rxFrameCap = some s.rxFrames.length then { s with dropLog := s.dropLog ++ [.rxOverflow] }
    else { s with rxFrames := s.rxFrames ++ [f] } := by
  by_cases h : s.config.rxFrameCap = some s.rxFrames.length
  · simp [deliver, rxFramesFull, h, State.drop]
  · simp [deliver, rxFramesFull, atCap_eq_false_iff.mpr h, h, State.rxFramePush]

/-- AutoAck, as the statements write it (rule R106). -/
theorem autoAck_eq (s : State) : autoAck s =
    if s.config.txQueueCap = some s.txQueue.length then { s with dropLog := s.dropLog ++ [.ackLost] }
    else { s with txQueue := s.txQueue ++ [encodeFrame (.ack s.ackNum)] } := by
  by_cases h : s.config.txQueueCap = some s.txQueue.length
  · simp [autoAck, txFull, h, State.drop]
  · simp [autoAck, txFull, atCap_eq_false_iff.mpr h, h, State.txPush]

/-- AcceptFrame of a DATA frame: the ACK and the delivery are each lost alone (rules R104 to R106). -/
theorem acceptData_eq (fn an : Num3) (re : Bool) (p : Bytes) (s : State) : acceptData fn an re p s =
    { s with
      ackNum := BitVec.ofNat 3 ((fn.toNat + 1) % 8)
      txQueue := s.txQueue ++ (if s.config.txQueueCap = some s.txQueue.length then []
        else [encodeFrame (.ack (BitVec.ofNat 3 ((fn.toNat + 1) % 8)))])
      rxFrames := s.rxFrames ++ (if s.config.rxFrameCap = some s.rxFrames.length then [] else [.data fn an re p])
      dropLog := s.dropLog ++ (if s.config.txQueueCap = some s.txQueue.length then [.ackLost] else [])
        ++ (if s.config.rxFrameCap = some s.rxFrames.length then [.rxOverflow] else []) } := by
  rw [acceptData, num3_add_one, autoAck_eq, deliver_eq]
  by_cases htx : s.config.txQueueCap = some s.txQueue.length <;>
    by_cases hrx : s.config.rxFrameCap = some s.rxFrames.length <;>
    simp [htx, hrx, State.setAckNum]

/-- Settles O26: each type is its configuration check, then AcceptFrame; every type but DATA and ResetAck is delivered only. -/
theorem receivedFrameEffects : Obligations.ReceivedFrameEffects := by
  refine ⟨fun s fn an re p => ?_, fun s => ?_, fun s n => ?_, fun s n => ?_, fun s => ?_, fun s v k => ?_⟩
  · rw [exceeds_eq_overMax]
    exact congrArg Host.Outcome.next (if_congr Iff.rfl rfl (acceptData_eq fn an re p s))
  · exact congrArg Host.Outcome.next (deliver_eq _ _)
  · exact congrArg Host.Outcome.next (deliver_eq _ _)
  · exact congrArg Host.Outcome.next (deliver_eq _ _)
  · exact congrArg Host.Outcome.next (deliver_eq _ _)
  · by_cases hk : k ∈ s.config.errorCodes
    · simpa [exec, execError, acceptError, errorCodeKnown, hk] using deliver_eq (.error v k) s
    · simp [exec, execError, errorCodeKnown, hk, State.drop]

end Machine

end Sys2Proof
end

section
/-! Proofs of the statements about the operations (42_host_operations.md): first what each fed byte does, then the whole next state of
each operation, and last FEED over whole byte strings: its frame, its chunking, its agreement with a buffer scan, its overrun. -/

namespace Sys2Proof.Machine

open Sys2Proof Sys2Proof.Reading

/-! ## One fed byte -/

theorem exec_feed (bs : Bytes) (s : State) : exec (.feed bs) s = .next ((feedBytes bs s).record (.consumed bs.length)) := rfl

theorem exec_feed_singleton (b : Byte) (s : State) : exec (.feed [b]) s = .next ((feedByte s b).record (.consumed 1)) := rfl

/-- While nothing is discarded, a write of the scanner's registers that starts no discard writes `rx_buf` alone. -/
theorem setRx_of_receiving {s : State} (hd : s.rxDiscarding = false) (buf : Bytes) :
    s.setRx buf false = { s with rxBuf := buf } := by
  simp [State.setRx, hd]

theorem feedByte_cancel (s : State) : feedByte s cancelByte = (s.setRx [] false).drop .cancelled := by
  simp [feedByte, feedCancel]

theorem feedByte_flag (s : State) : feedByte s flagByte = feedFlag s := by
  have hne : flagByte ≠ cancelByte := by decide
  simp [feedByte, hne]

theorem feedByte_flag_of_discarding {s : State} (hd : s.rxDiscarding = true) :
    feedByte s flagByte = (s.setRx [] false).drop .overrun := by
  simp [feedByte_flag, feedFlag, hd]

theorem feedByte_flag_of_receiving {s : State} (hd : s.rxDiscarding = false) :
    feedByte s flagByte = endCandidate s.rxBuf (s.setRx [] false) := by
  simp [feedByte_flag, feedFlag, hd]

theorem isTerminator_eq_false_iff {b : Byte} : isTerminator b = false ↔ b ≠ flagByte ∧ b ≠ cancelByte := by
  simp [isTerminator]

theorem feedByte_plain {b : Byte} (hb : isTerminator b = false) (s : State) : feedByte s b = feedOther b s := by
  obtain ⟨hflag, hcancel⟩ := isTerminator_eq_false_iff.mp hb
  simp [feedByte, hflag, hcancel]

theorem atCap_eq_true_iff {cap : Option Nat} {n : Nat} : atCap cap n = true ↔ cap = some n := by
  rw [← Bool.not_eq_false, ← not_iff_not, not_not, atCap_eq_false_iff]

theorem feedByte_plain_of_discarding {b : Byte} (hb : isTerminator b = false) {s : State} (hd : s.rxDiscarding = true) :
    feedByte s b = s := by
  simp [feedByte_plain hb, feedOther, hd]

theorem feedByte_plain_of_full {b : Byte} (hb : isTerminator b = false) {s : State} (hd : s.rxDiscarding = false)
    (hfull : s.config.rxBufCap = some s.rxBuf.length) : feedByte s b = s.setRx [] true := by
  simp [feedByte_plain hb, feedOther, hd, rxBufFull, atCap_eq_true_iff.mpr hfull]

theorem feedByte_plain_of_room {b : Byte} (hb : isTerminator b = false) {s : State} (hd : s.rxDiscarding = false)
    (hroom : s.config.rxBufCap ≠ some s.rxBuf.length) : feedByte s b = s.setRx (s.rxBuf ++ [b]) false := by
  simp [feedByte_plain hb, feedOther, hd, rxBufFull, atCap_eq_false_iff.mpr hroom]

/-- Settles O22: the cancel byte's update, with its two registers written out. -/
theorem cancelByteEffect : Obligations.CancelByteEffect := by
  intro s
  refine (exec_feed_singleton cancelByte s).trans ?_
  rw [feedByte_cancel]
  rfl

/-- Settles O23: while discarding an OVERRUN; otherwise the decoder's two answers, which are those of rule R88's pseudocode. -/
theorem flagByteEffect : Obligations.FlagByteEffect := by
  intro s
  split_ifs with hd
  · refine (exec_feed_singleton flagByte s).trans ?_
    rw [feedByte_flag_of_discarding hd]
    rfl
  · rw [Bool.not_eq_true] at hd
    cases hdec : decodeByR88 s.config s.rxBuf with
    | drop r => exact exec_feed_flag_of_drop hd ((decodeCandidateFollowsPseudocode _ _).trans hdec)
    | accept f =>
      rw [← setRx_of_receiving hd]
      exact exec_feed_flag_of_accept hd ((decodeCandidateFollowsPseudocode _ _).trans hdec)

/-- Settles O24: the three branches of a byte that is no terminator. -/
theorem otherByteEffect : Obligations.OtherByteEffect := by
  intro s b hflag hcancel
  have hb : isTerminator b = false := isTerminator_eq_false_iff.mpr ⟨hflag, hcancel⟩
  rw [exec_feed_singleton]
  split_ifs with hd hfull
  · rw [feedByte_plain_of_discarding hb hd]
    rfl
  · rw [feedByte_plain_of_full hb (by simpa using hd) hfull]
    rfl
  · rw [Bool.not_eq_true] at hd
    rw [feedByte_plain_of_room hb hd hfull, setRx_of_receiving hd]
    rfl

/-- Settles O21: FEED is that fold; the example is run, and reads nothing of the OPEN error codes on its way. -/
theorem feedRunsEveryByteInOrder : Obligations.FeedRunsEveryByteInOrder :=
  ⟨fun s bs => exec_feed bs s, exec_feed [], rfl⟩

/-! ## Accepted frames -/

/-- Deliver with its two outcomes written as what each list gains (rule R105). -/
theorem deliver_eq_appends (f : AshFrame) (s : State) : deliver f s =
    { s with
      rxFrames := s.rxFrames ++ (if s.config.rxFrameCap = some s.rxFrames.length then [] else [f])
      dropLog := s.dropLog ++ (if s.config.rxFrameCap = some s.rxFrames.length then [.rxOverflow] else []) } := by
  rw [deliver_eq]
  split_ifs <;> simp

/-- Settles O25: the FEED of the flag runs AcceptFrame on the state without the candidate, and each type ends in its delivery. -/
theorem acceptedFrameEffects : Obligations.AcceptedFrameEffects := by
  intro s f hd hf lostAck lostFrame taken
  refine (exec_feed_flag_of_accept hd ((decodeCandidateFollowsPseudocode _ _).trans hf)).trans (congrArg Host.Outcome.next ?_)
  rw [setRx_of_receiving hd]
  have hdelivered : (deliver f { s with rxBuf := [] }).record (.consumed 1) = taken := by
    simp [deliver_eq_appends, State.record, taken, lostFrame]
  cases f with
  | data fn an re p => simp [acceptFrame, acceptData_eq, State.record, taken, lostFrame, lostAck]
  | resetAck => simp [acceptFrame, acceptResetAck, State.setReady, deliver_eq_appends, State.record, taken, lostFrame]
  | ack | nak | reset | error => exact hdelivered

/-! ## The other operations -/

theorem txFull_eq_true_iff {s : State} : txFull s = true ↔ s.config.txQueueCap = some s.txQueue.length := atCap_eq_true_iff

/-- SEND_DATA with its guards as the statements write them (rule R97). -/
theorem exec_sendData_eq (s : State) (p : Bytes) : exec (.sendData p) s = .next (
    if s.config.gateSendOnReady = true ∧ s.ready = false then s.record (.status .linkNotReady)
    else if exceeds s.config.maxPayload p.length = true then s.record (.status .payloadTooLong)
    else if s.config.txQueueCap = some s.txQueue.length then s.record (.status .txFull)
    else queueData p s.txFrameNum s.ackNum s) := by
  have hgate : (s.config.gateSendOnReady && !s.ready) = true ↔ s.config.gateSendOnReady = true ∧ s.ready = false := by simp
  simp only [exec, execSendData_eq, exceeds_eq_overMax, txFull_eq_true_iff, hgate]

/-- An empty DATA frame has a body of three bytes, each of which may be escaped (rules R53, R97). -/
theorem encodeFrame_empty_data_length (fn an : Num3) :
    4 ≤ (encodeFrame (.data fn an false [])).length ∧ (encodeFrame (.data fn an false [])).length ≤ 7 := by
  obtain ⟨-, -, hmax, hmin⟩ := encodedFrameLength (.data fn an false [])
  exact ⟨hmin, hmax⟩

/-- Settles O18: the branches in their order, the counter's sum mod 8, the two bounds of rule R53, and the example's two sends. -/
theorem sendDataEffect : Obligations.SendDataEffect := by
  refine ⟨fun s p => ?_, encodeFrame_empty_data_length, ?_⟩
  · rw [exec_sendData_eq, queueData, num3_add_one]
    rfl
  · exact ⟨_, rfl, _, rfl, rfl⟩

/-- Settles O20: the guard as the statement writes it, and the Reset's wire form. -/
theorem resetOperationEffect : Obligations.ResetOperationEffect := by
  intro s
  obtain ⟨-, hwire, -⟩ := resetAndResetAckWireForms
  simp only [exec, execReset, txFull_eq_true_iff, hwire]
  rfl

/-- Settles O27: the two shapes of `tx_queue`. -/
theorem pollOutgoingEffect : Obligations.PollOutgoingEffect := by
  refine ⟨fun s hq => ?_, fun s w rest hq => ?_⟩ <;> simp [exec, execPollOutgoing, hq, State.record]

/-- Settles O28: the two shapes of `rx_frames`. -/
theorem recvFrameEffect : Obligations.RecvFrameEffect := by
  refine ⟨fun s hq => ?_, fun s f rest hq => ?_⟩ <;> simp [exec, execRecvFrame, hq, State.record]

/-- The four fields of `STATUS` do not overlap, so its number is their sum (rule R109). -/
theorem statusByte_toNat (s : State) : (statusByte s).toNat =
    (if s.ready then 128 else 0) + s.txFrameNum.toNat * 16 + (if s.rxDiscarding then 8 else 0) + s.ackNum.toNat := by
  have hsum : ∀ (ready discarding : Bool) (fn an : Num3),
      (((BitVec.ofBool ready).setWidth 8 <<< 7) ||| (fn.setWidth 8 <<< 4) ||| ((BitVec.ofBool discarding).setWidth 8 <<< 3)
        ||| an.setWidth 8).toNat =
      (if ready then 128 else 0) + fn.toNat * 16 + (if discarding then 8 else 0) + an.toNat := by decide
  exact hsum s.ready s.rxDiscarding s.txFrameNum s.ackNum

/-- Settles O29: only the result is returned; the layout as a sum. -/
theorem readStatusEffect : Obligations.ReadStatusEffect := ⟨fun _ => rfl, statusByte_toNat⟩

/-! ## FEED over whole byte strings -/

/-- What joins `tx_queue` are ACK frames. -/
def State.TxGrowsByAcks (s t : State) : Prop :=
  ∃ acks : List Num3, t.txQueue = s.txQueue ++ acks.map fun n => encodeFrame (.ack n)

theorem State.TxGrowsByAcks.of_same {s t : State} (h : t.txQueue = s.txQueue) : s.TxGrowsByAcks t := ⟨[], by simp [h]⟩

theorem receptionRel_txGrowsByAcks : ReceptionRel State.TxGrowsByAcks where
  refl _ := .of_same rfl
  trans := by
    rintro s t u ⟨acks, h⟩ ⟨acks', h'⟩
    exact ⟨acks ++ acks', by simp [h, h']⟩
  drop _ _ := .of_same rfl
  ackPush _ n := ⟨[n], rfl⟩
  rxFramePush _ _ := .of_same rfl
  setAckNum _ _ := .of_same rfl
  setReady _ _ := .of_same rfl
  setRx _ _ _ := .of_same rfl

/-- Settles O30: what every update of reception keeps or lets grow; `ready` is only ever set, since a FEED is no RESET. -/
theorem feedFrame : Obligations.FeedFrame := by
  intro s t bs h
  have hready : s.ready = true → t.ready = true := by
    intro hs
    by_contra ht
    obtain ⟨-, hwrites, -⟩ := readyWrittenOnlyByResetAndResetAck
    obtain ⟨hreset, -⟩ | ⟨hset, -⟩ := hwrites _ s t h fun heq => ht (heq.trans hs)
    · cases hreset
    · exact ht hset
  cases h
  obtain ⟨hnum, hcfg, hpend, hres⟩ := keptByReception_feedBytes bs s
  obtain ⟨-, frames, hframes⟩ := receptionRel_queuesGrow.feedBytes bs s
  exact ⟨hnum, hcfg, hpend, by simp [hres], hready, receptionRel_txGrowsByAcks.feedBytes bs s, frames, hframes.symm⟩

/-- Results returned before a FEED are carried through it. -/
theorem feedBytes_with_results (bs : Bytes) (s : State) (rs : List Result) :
    feedBytes bs { s with results := rs } = { feedBytes bs s with results := rs } := by
  obtain ⟨drops, outs, hlog, hres, hcomm⟩ := ghostBlind_feedBytes bs s
  have houts : outs = [] := by
    rw [(keptByReception_feedBytes bs s).results] at hres
    simpa using hres
  have hcarried := hcomm s.dropLog rs
  rw [← hlog, houts, List.append_nil] at hcarried
  exact hcarried

/-- Settles O31: the fold over a concatenation; the first count stands in a field that the second FEED carries through. -/
theorem feedChunking : Obligations.FeedChunking := by
  intro s xs ys
  have hsecond : feedBytes ys ((feedBytes xs s).record (.consumed xs.length)) =
      { feedBytes (xs ++ ys) s with results := s.results ++ [.consumed xs.length] } := by
    rw [(keptByReception_feedBytes xs s).record_eq, feedBytes_with_results, feedBytes_append]
  refine ⟨_, _, _, rfl, rfl, rfl, ?_, ?_⟩ <;> rw [hsecond]
  · rw [(keptByReception_feedBytes (xs ++ ys) s).record_eq, List.length_append]
    rfl
  · simp

theorem deliver_setRx (f : AshFrame) (s : State) (buf : Bytes) (d : Bool) :
    deliver f (s.setRx buf d) = (deliver f s).setRx buf d := by
  rw [deliver_eq_appends, deliver_eq_appends]
  rfl

theorem acceptFrame_setRx (f : AshFrame) (s : State) (buf : Bytes) (d : Bool) :
    acceptFrame f (s.setRx buf d) = (acceptFrame f s).setRx buf d := by
  cases f with
  | data fn an re p =>
    simp only [acceptFrame, acceptData_eq]
    rfl
  | resetAck => exact deliver_setRx _ (s.setReady true) buf d
  | ack | nak | reset | error => exact deliver_setRx _ s buf d

/-- The end of a candidate neither reads nor writes the scanner's two registers. -/
theorem endCandidate_setRx (raw : Bytes) (s : State) (buf : Bytes) (d : Bool) :
    endCandidate raw (s.setRx buf d) = (endCandidate raw s).setRx buf d := by
  unfold endCandidate
  rw [State.setRx_config]
  cases decodeCandidate s.config raw with
  | drop r => rfl
  | accept f => exact acceptFrame_setRx f s buf d

/-- A buffer that holds no terminator holds no candidate yet. -/
theorem scanBuffer_of_plain {s : State} (hplain : ∀ b ∈ s.rxBuf, isTerminator b = false) (k : Nat) : scanBuffer k s = s := by
  have hnone : s.rxBuf.dropWhile (fun b => !isTerminator b) = [] := by simpa [List.dropWhile_eq_nil_iff] using hplain
  cases k with
  | zero => rfl
  | succ k => simp [scanBuffer, hnone]

/-- The scan takes the bytes before the first terminator as a candidate, and goes on behind it. -/
theorem scanBuffer_of_terminator {s : State} {raw rest : Bytes} {t : Byte} (hbuf : s.rxBuf = raw ++ t :: rest)
    (hplain : ∀ b ∈ raw, isTerminator b = false) (ht : isTerminator t = true) (k : Nat) :
    scanBuffer (k + 1) s = scanBuffer k (
      if t = cancelByte then (s.setRx rest false).drop .cancelled else endCandidate raw (s.setRx rest false)) := by
  have hdrop : s.rxBuf.dropWhile (fun b => !isTerminator b) = t :: rest := by
    rw [hbuf, List.dropWhile_append_of_pos (by simpa using hplain)]
    simp [ht]
  have htake : s.rxBuf.takeWhile (fun b => !isTerminator b) = raw := by
    rw [hbuf, List.takeWhile_append_of_pos (by simpa using hplain)]
    simp [ht]
  by_cases hc : t = cancelByte <;> simp [scanBuffer, hdrop, htake, hc]

/-- Feeding a terminator while the bytes `rest` wait behind it in the buffer is taking the candidate before it. -/
theorem feedByte_terminator_setRx {t : Byte} (ht : isTerminator t = true) {s : State} (hd : s.rxDiscarding = false) (rest : Bytes) :
    (feedByte s t).setRx rest false =
      if t = cancelByte then (s.setRx rest false).drop .cancelled else endCandidate s.rxBuf (s.setRx rest false) := by
  by_cases hc : t = cancelByte
  · rw [if_pos hc, hc, feedByte_cancel]
    rfl
  · obtain rfl : t = flagByte := by simpa [isTerminator, hc] using ht
    rw [if_neg hc, feedByte_flag_of_receiving hd, endCandidate_setRx, endCandidate_setRx]
    rfl

/-- After a terminator the scanner is at the start of a candidate (rules R101, R102). -/
theorem feedByte_terminator_rx {t : Byte} (ht : isTerminator t = true) (s : State) :
    (feedByte s t).rxBuf = [] ∧ (feedByte s t).rxDiscarding = false := by
  obtain ⟨-, h⟩ | ⟨-, -, h⟩ | ⟨-, -, h⟩ | ⟨hc, hf, -⟩ | ⟨hc, hf, -⟩ | ⟨hc, hf, -⟩ := feedByte_cases s t
  case inr.inr.inl =>
    rw [h, endCandidate_setRx]
    exact ⟨rfl, rfl⟩
  case inl | inr.inl =>
    rw [h]
    exact ⟨rfl, rfl⟩
  all_goals simp [isTerminator, hc, hf] at ht

/-- Byte by byte or by scanning the whole, by induction on the bytes: a plain byte only joins the candidate, and a terminator takes the
same candidate in both readings (rules R100, R110). -/
theorem feedBytes_eq_scanBuffer {bs : Bytes} {s : State} {k : Nat} (hcap : s.config.rxBufCap = none) (hd : s.rxDiscarding = false)
    (hplain : ∀ b ∈ s.rxBuf, isTerminator b = false) (hk : bs.length ≤ k) :
    feedBytes bs s = scanBuffer k (s.setRx (s.rxBuf ++ bs) false) := by
  induction bs generalizing s k with
  | nil =>
    have hsame : s.setRx (s.rxBuf ++ []) false = s := by simp [State.setRx, ← hd]
    rw [hsame, scanBuffer_of_plain hplain, feedBytes_nil]
  | cons b bs ih =>
    rw [feedBytes_cons]
    cases hb : isTerminator b with
    | false =>
      rw [feedByte_plain_of_room hb hd (by simp [hcap])]
      have hplain' : ∀ x ∈ s.rxBuf ++ [b], isTerminator x = false := by simpa [or_imp, forall_and, hb] using hplain
      rw [ih (s := s.setRx (s.rxBuf ++ [b]) false) hcap rfl hplain' (Nat.le_of_succ_le hk)]
      simp [State.setRx]
    | true =>
      obtain ⟨k, rfl⟩ : ∃ j, k = j + 1 := Nat.exists_eq_add_one.mpr (Nat.lt_of_lt_of_le (Nat.succ_pos _) hk)
      obtain ⟨hbuf, hd'⟩ := feedByte_terminator_rx hb s
      have hcap' : (feedByte s b).config.rxBufCap = none := by rw [(keptByReception_feedByte s b).config, hcap]
      rw [ih hcap' hd' (by simp [hbuf]) (Nat.le_of_succ_le_succ hk), hbuf, List.nil_append, feedByte_terminator_setRx hb hd,
        scanBuffer_of_terminator rfl hplain hb]
      rfl

/-- Settles O32: the input's length bounds the number of its candidates. -/
theorem feedAgreesWithBufferScan : Obligations.FeedAgreesWithBufferScan := by
  intro s bs hcap hd hplain
  rw [exec_feed, feedBytes_eq_scanBuffer hcap hd hplain le_rfl, setRx_of_receiving hd]

/-- While discarding, bytes that hold no terminator change nothing (rule R103). -/
theorem feedBytes_plain_of_discarding {bs : Bytes} (hplain : ∀ b ∈ bs, isTerminator b = false) {s : State}
    (hd : s.rxDiscarding = true) : feedBytes bs s = s := by
  induction bs with
  | nil => rfl
  | cons b bs ih =>
    obtain ⟨hb, hbs⟩ := List.forall_mem_cons.mp hplain
    rw [feedBytes_cons, feedByte_plain_of_discarding hb hd, ih hbs]

/-- The byte after the capacity is reached overruns the buffer, and the rest of the candidate is skipped (rule R103). -/
theorem feedBytes_overlong {raw : Bytes} {s : State} {cap : Nat} (hcap : s.config.rxBufCap = some cap)
    (hd : s.rxDiscarding = false) (hempty : s.rxBuf = []) (hplain : ∀ b ∈ raw, isTerminator b = false) (hlong : cap < raw.length) :
    feedBytes raw s = s.setRx [] true := by
  obtain ⟨held, x, skipped, rfl, hheld⟩ : ∃ held x skipped, raw = held ++ x :: skipped ∧ held.length = cap :=
    ⟨raw.take cap, raw[cap], raw.drop (cap + 1), by simp, by simpa using hlong.le⟩
  obtain ⟨hheldPlain, hx, hskipped⟩ := by simpa [or_imp, forall_and] using hplain
  have hroom : withinCap s.config.rxBufCap (s.rxBuf.length + held.length) := by simp [withinCap, hcap, hempty, hheld]
  have hover : feedByte (s.setRx held false) x = s.setRx [] true :=
    feedByte_plain_of_full hx rfl (by simp [hcap, hheld])
  rw [feedBytes_append, feedBytes_eq_setRx_append hd hheldPlain hroom, hempty, List.nil_append, feedBytes_cons, hover,
    feedBytes_plain_of_discarding hskipped rfl]

/-- Settles O33: the overrun, then the flag that ends the discard. -/
theorem overlongCandidateIsDiscardedWhole : Obligations.OverlongCandidateIsDiscardedWhole := by
  intro s raw cap hcap hd hempty hplain hlong
  have hflag : feedByte (s.setRx [] true) 0x7E = s.drop .overrun :=
    (feedByte_flag_of_discarding rfl).trans (by simp [State.setRx, State.drop, hd, hempty])
  rw [exec_feed, feedBytes_append, feedBytes_overlong hcap hd hempty hplain hlong, feedBytes_cons, feedBytes_nil, hflag,
    List.length_append]
  rfl

end Sys2Proof.Machine
end

section
/-! Proofs of the statements about the exceptions (60_exceptions.md): what a step does when no call is pending. -/

namespace Sys2Proof.Machine

open Sys2Proof

/-- Settles O40: an empty `pending` is fetched as idle, and an idle step answers its own state. -/
theorem idleStepChangesNothing : Obligations.IdleStepChangesNothing := by
  intro s hpending
  simp only [step, fetch_idle hpending]

end Sys2Proof.Machine
end

section
/-! Proofs of the statements about reset and hazards (70_reset_and_hazards.md): first the FEED of a whole encoded frame, then the
resynchronisation by a leading terminator, the hardware reset, and the link bring-up. -/

namespace Sys2Proof.Machine

open Sys2Proof Sys2Proof.Reading

/-! ## The FEED of a whole encoded frame -/

/-- At the start of a candidate and with room for it, the wire bytes of a frame do what the frame as an instruction does (rules R94,
R102, R103). -/
theorem exec_toInstr_eq_feedBytes_encodeFrame {f : AshFrame} {s : State} (hd : s.rxDiscarding = false) (hbuf : s.rxBuf = [])
    (hroom : withinCap s.config.rxBufCap (sealBody (body f)).length) :
    exec f.toInstr s = .next (feedBytes (encodeFrame f) s) := by
  have hparse : parseCandidate (sealBody (body f)) = .accept f :=
    (parseCandidate_sealBody _ _).trans (classify_controlByte_fieldBytes f)
  have hplain : ∀ b ∈ sealBody (body f), isTerminator b = false := fun _ hb => not_terminator_of_mem_stuff hb
  have hheld : feedBytes (sealBody (body f)) s = s.setRx (sealBody (body f)) false := by
    simpa [hbuf] using feedBytes_eq_setRx_append hd hplain (by simpa [hbuf] using hroom)
  have hempty : s.setRx [] false = s := by simp [State.setRx, ← hd, ← hbuf]
  have hflag : feedByte (s.setRx (sealBody (body f)) false) flagByte = endCandidate (sealBody (body f)) (s.setRx [] false) :=
    feedByte_flag_of_receiving rfl
  rw [exec_toInstr_of_parse hparse, encodeFrame, feedBytes_append, hheld, feedBytes_cons, feedBytes_nil, hflag, hempty]

/-- The room the statements ask for is room for the candidate, which is the wire bytes without their flag (rule R53). -/
theorem withinCap_sealBody_of_encodeFrame {c : Config} {f : AshFrame}
    (hroom : ∀ cap, c.rxBufCap = some cap → (encodeFrame f).length ≤ cap + 1) :
    withinCap c.rxBufCap (sealBody (body f)).length :=
  fun cap hcap => by simpa [encodeFrame] using hroom cap hcap

/-! ## Resynchronisation -/

/-- A leading terminator gives a clean start from every state: the frame behind it is received on what that byte left (rule R133). -/
theorem exec_feed_terminator_encodeFrame {x : Byte} (hx : isTerminator x = true) {s : State} {f : AshFrame}
    (hroom : ∀ cap, s.config.rxBufCap = some cap → (encodeFrame f).length ≤ cap + 1) :
    ∃ t, exec f.toInstr (feedByte s x) = .next t ∧
      exec (.feed (x :: encodeFrame f)) s =
        .next { t with results := s.results ++ [.consumed ((encodeFrame f).length + 1)] } := by
  obtain ⟨hbuf, hd⟩ := feedByte_terminator_rx hx s
  have hroom' : withinCap (feedByte s x).config.rxBufCap (sealBody (body f)).length := by
    rw [(keptByReception_feedByte s x).config]
    exact withinCap_sealBody_of_encodeFrame hroom
  refine ⟨_, exec_toInstr_eq_feedBytes_encodeFrame hd hbuf hroom', ?_⟩
  rw [exec_feed, (keptByReception_feedBytes _ s).record_eq, feedBytes_cons, List.length_cons]

/-- Settles O34: both leading bytes are terminators; a cancel's update is written out, and what a flag leaves is `u`. -/
theorem cancelResynchronises : Obligations.CancelResynchronises := by
  refine ⟨fun s f hroom => ?_, fun s f hroom => ?_, fun s hbuf hd => ?_⟩
  · have hstart : feedByte s cancelByte =
        { s with rxBuf := [], rxDiscarding := false, dropLog := s.dropLog ++ [.cancelled] } := feedByte_cancel s
    rw [← hstart]
    exact exec_feed_terminator_encodeFrame (by decide) hroom
  · obtain ⟨hbuf, hd⟩ := feedByte_terminator_rx (t := flagByte) (by decide) s
    have hkept := keptByReception_feedByte s flagByte
    obtain ⟨t, hframe, hfeed⟩ := exec_feed_terminator_encodeFrame (x := flagByte) (by decide) hroom
    exact ⟨_, t, (exec_feed_singleton flagByte s).trans (congrArg Host.Outcome.next (hkept.record_eq _)), hkept.results, hbuf, hd,
      hframe, hfeed⟩
  · have hshort : decodeCandidate s.config s.rxBuf = .drop .tooShort := by
      rw [hbuf]
      rfl
    refine (exec_feed_flag_of_drop hd hshort).trans ?_
    rw [← hbuf]

/-! ## Hardware reset -/

/-- Settles O42: `fetch` hands over the reset state, whose kept fields are those of the state without the request. -/
theorem hardwareResetStep : Obligations.HardwareResetStep := by
  intro s rest hpending
  simp only [step, fetch_restart hpending]
  rfl

/-! ## Link bring-up -/

/-- RESET with room for one more frame queues the Reset frame and clears `ready` (rule R99). -/
theorem exec_reset_of_room {s : State} (hroom : s.config.txQueueCap ≠ some s.txQueue.length) :
    exec .reset s = .next { s with
      txQueue := s.txQueue ++ [[0xC0, 0x38, 0xBC, 0x7E]], ready := false, results := s.results ++ [.status .ok] } :=
  (resetOperationEffect s).trans (congrArg Host.Outcome.next (if_neg hroom))

/-- The peer's ResetAck, fed at the start of a candidate, is the ResetAck as an instruction (rules R60, R104). -/
theorem feedBytes_resetAck {s : State} (hd : s.rxDiscarding = false) (hbuf : s.rxBuf = [])
    (hroom : ∀ cap, s.config.rxBufCap = some cap → 3 ≤ cap) :
    feedBytes [0xC1, 0x28, 0x9D, 0x7E] s = acceptFrame .resetAck s := by
  have hwire : encodeFrame .resetAck = [0xC1, 0x28, 0x9D, 0x7E] := by decide
  have hroom' : withinCap s.config.rxBufCap (sealBody (body .resetAck)).length :=
    withinCap_sealBody_of_encodeFrame fun cap hcap => by simpa [hwire] using hroom cap hcap
  have hframe := exec_toInstr_eq_feedBytes_encodeFrame hd hbuf hroom'
  rw [hwire, exec_toInstr] at hframe
  exact (Host.Outcome.next.inj hframe).symm

/-- Settles O51: each of the three steps runs its call; the last one's ResetAck sets `ready` and leaves `tx_queue`. -/
theorem bringUpMakesLinkReady : Obligations.BringUpMakesLinkReady := by
  intro c htx hrx
  obtain ⟨-, hpoll⟩ := pollOutgoingEffect
  have hstep := stepRunsDecodedOperation
  refine ⟨_, ⟨_, (hstep _ _ _ _ _ rfl rfl).trans (exec_reset_of_room htx), _,
    (hstep _ _ _ _ _ rfl rfl).trans (hpoll _ _ _ rfl), _, (hstep _ _ _ _ _ rfl rfl).trans (exec_feed _ _), rfl⟩, ?_⟩
  rw [feedBytes_resetAck rfl rfl hrx]
  refine ⟨deliver_ready _ _, deliver_txQueue _ _, ?_⟩
  rw [State.record_results, (keptByReception_acceptFrame _ _).results]
  rfl

end Sys2Proof.Machine
end
